-- ==== Sys2Proof/Word.lean ====
section
/-! DEFINITION. The word types of the PD-408 and the one update of a fixed-size table.
Values that cross a host port or a link, and counts that wrap, are bit vectors; counts that saturate are `Nat`. -/

namespace Sys2Proof

/-- One byte: a generation, an operand byte, a setting. -/
abbrev Byte := BitVec 8

/-- Sixteen bits: desk time, an action code, an extra field (R108, R182). -/
abbrev Half := BitVec 16

/-- Desk time in milliseconds, 65535 followed by 0 (R182). -/
abbrev Time := BitVec 16

/-- `v` with entry `i` replaced by `a`. -/
def upd {α : Type} {n : Nat} (v : Vector α n) (i : Fin n) (a : α) : Vector α n :=
  v.set i.1 a i.2

/-- The table whose entry `i` is `f i`, built over lists so that the kernel evaluates it. -/
def tabulate {α : Type} (n : Nat) (f : Fin n → α) : Vector α n :=
  ⟨⟨(List.finRange n).map f⟩, by simp⟩

end Sys2Proof
end

