-- ==== Sys2Proof/Syntax.lean ====
section
/-! DEFINITION. The commands of the PD-408: one constructor for each row of spec/opcode_table.json.
A request row (CLAIM to DESK_RESET) names the port whose submitted request the owning block takes; the operands of
the request travel in the SUBMIT and stand in the port until then. Supervisor requests name no port: they are port 0's (R176). -/

namespace Sys2Proof

/-- A host and its SPI port, 0 to 3 (00_scope 1.9-4). -/
abbrev Port := Fin 4
/-- A panel link, 0 to 7. -/
abbrev LinkId := Fin 8
/-- A key position, panel × 128 + key (00_scope 1.9-1). -/
abbrev KeyPos := Fin 1024
/-- An ask id, 0 to 3 (R40). -/
abbrev AskId := Fin 4
/-- A selection group, 0 to 31 (R96). -/
abbrev GroupId := Fin 32
/-- A repeat profile, 0 to 7 (R83). -/
abbrev ProfileId := Fin 8

/-- The failed outcomes of R144 that the row EXCHANGE_FAILED covers; AGAIN has a row of its own. -/
inductive FailKind where
  | noReply
  | frameFault
  | brokenMessage
  | wrongReply
  deriving DecidableEq, Repr

/-- The commands. Their constructors' order is the order of the table. -/
inductive Instr where
  /-- POWER_ON (R185): power rises or RESET goes low, and the part is held in power-on reset; taken in the hold, RESET goes
  high, and the part leaves it. -/
  | powerOn
  /-- DESK_TICK (R182). -/
  | deskTick
  /-- CHIP_SELECT_FALL (R171). -/
  | chipSelectFall (p : Port)
  /-- STATUS (R172): the kind byte 0x00, or any byte that names no other transaction. -/
  | status (p : Port) (kindByte : Byte)
  /-- FETCH (R179): its kind byte completes; taken again, the next byte is clocked. -/
  | fetch (p : Port)
  /-- ANSWER_CONSUMED (R180). -/
  | answerConsumed (p : Port)
  /-- NOTICES (R116): its kind byte completes; taken again, the next byte is clocked. -/
  | notices (p : Port)
  /-- NOTICE_REMOVAL (R117). -/
  | noticeRemoval (p : Port)
  /-- CANCEL (R181). -/
  | cancel (p : Port)
  /-- CHIP_SELECT_RISE (R57, R171). -/
  | chipSelectRise (p : Port)
  /-- SUBMIT (R176, R177): chip select rises with `bytes` complete after the kind byte. -/
  | submit (p : Port) (bytes : List Byte)
  /-- CLAIM (R19). -/
  | claim (p : Port)
  /-- RELEASE (R24). -/
  | release (p : Port)
  /-- PIN (R28). -/
  | pin (p : Port)
  /-- UNPIN (R29). -/
  | unpin (p : Port)
  /-- FIX (R30), port 0. -/
  | fix
  /-- LAMP, the request (R32). -/
  | lamp (p : Port)
  /-- CLEAR_TABLE (R34), port 0. -/
  | clearTable
  /-- LEAVE (R36). -/
  | leave (p : Port)
  /-- READ_BINDING (R13). -/
  | readBinding (p : Port)
  /-- YIELD_ASK (R42). -/
  | yieldAsk (p : Port)
  /-- YIELD_REPLY (R49). -/
  | yieldReply (p : Port)
  /-- ASK_DEADLINE (R50). -/
  | askDeadline (id : AskId)
  /-- HOST_LAPSE (R58). -/
  | hostLapse (p : Port)
  /-- OPEN_GROUP (R98). -/
  | openGroup (p : Port)
  /-- CLOSE_GROUP (R99). -/
  | closeGroup (p : Port)
  /-- CLEAR_SELECTION (R100). -/
  | clearSelection (p : Port)
  /-- READ_GROUP (R101). -/
  | readGroup (p : Port)
  /-- SET_PROFILE (R85), port 0. -/
  | setProfile
  /-- READ_PROFILE (R86). -/
  | readProfile (p : Port)
  /-- SET_PORT (R122). -/
  | setPort (p : Port)
  /-- READ_HELD (R79). -/
  | readHeld (p : Port)
  /-- READ_PANEL (R168). -/
  | readPanel (p : Port)
  /-- SET_LINKS (R183), port 0. -/
  | setLinks
  /-- READ_DESK (R184). -/
  | readDesk (p : Port)
  /-- DESK_RESET (R186), port 0. -/
  | deskReset
  /-- LINK_ENABLE (R155): the link engine takes the enabling handed to it. -/
  | linkEnable (n : LinkId)
  /-- LINK_DISABLE (R165): the link engine takes the disabling handed to it. -/
  | linkDisable (n : LinkId)
  /-- PROBE_TIMER (R156). -/
  | probeTimer (n : LinkId)
  /-- HOLDOFF_TIMER (R164). -/
  | holdoffTimer (n : LinkId)
  /-- POLL (R160). -/
  | poll (n : LinkId)
  /-- IDENT (R157): the exchange ends with an IDENT message. -/
  | ident (n : LinkId) (panelType keyCount : Byte)
  /-- IMAGE_REPLY (R159): bit `k` of `keys` is 1 where key `k` is down (R193). -/
  | imageReply (n : LinkId) (keys : BitVec 128)
  /-- EDGE (R151): edge bit `S`, press or release, key number. -/
  | edge (n : LinkId) (bitS : Bool) (press : Bool) (key : BitVec 7)
  /-- NOTHING (R146). -/
  | nothing (n : LinkId)
  /-- LOST (R162). -/
  | lost (n : LinkId)
  /-- ACCEPT (R146). -/
  | accept (n : LinkId)
  /-- AGAIN (R144). -/
  | again (n : LinkId)
  /-- EXCHANGE_FAILED (R146). -/
  | exchangeFailed (n : LinkId) (why : FailKind)
  /-- LAMP_ACCEPTANCE (R132). -/
  | lampAcceptance (n : LinkId)
  /-- PRESS_EDGE (R64): the event engine takes the press of this position handed to it. -/
  | pressEdge (q : KeyPos)
  /-- RELEASE_EDGE (R71). -/
  | releaseEdge (q : KeyPos)
  /-- REPEAT_DUE (R88). -/
  | repeatDue (q : KeyPos)
  deriving DecidableEq, Repr

end Sys2Proof
end

