-- ==== Sys2Proof/Decode.lean ====
section
/-! DEFINITION. The kind bytes of a transaction and the commands they spell (R172, R189), and the command that a word spells
by the bits of spec/opcode_table.json. No row of the table gives bits, so no word spells a command. The bytes of a SUBMIT
are read in Machine/Operands.lean, the frames of a link in Machine/Wire.lean. -/

namespace Sys2Proof

/-- The five kinds of transaction (R172). -/
inductive TransactionKind where
  | status
  | submit
  | fetch
  | notices
  | cancel
  deriving DecidableEq, Repr

/-- The kind a kind byte names; every byte that is none of the five codes is taken as STATUS (R172, R189). -/
def kindOf (b : Byte) : TransactionKind :=
  match b.toNat with
  | 0xA5 => .submit
  | 0x5A => .fetch
  | 0x3C => .notices
  | 0xC3 => .cancel
  | _ => .status

/-- The command of port `p` as its kind byte completes. A SUBMIT has none: it acts as chip select rises (R172). -/
def kindCommand (p : Port) (b : Byte) : Option Instr :=
  match kindOf b with
  | .status => some (.status p b)
  | .submit => none
  | .fetch => some (.fetch p)
  | .notices => some (.notices p)
  | .cancel => some (.cancel p)

/-- The command of port `p` as chip select rises, `clocked` being the complete bytes clocked in: the SUBMIT of the bytes
after its kind byte, or the end of any other transaction (R171, R172, R176). -/
def endCommand (p : Port) (clocked : List Byte) : Instr :=
  match clocked with
  | [] => .chipSelectRise p
  | b :: bytes => if kindOf b = .submit then .submit p bytes else .chipSelectRise p

/-- No row of the table has bits: no word spells a command. -/
def decodeTableWord (_nbits _w : Nat) : Option Instr :=
  none

end Sys2Proof
end

