-- ==== Sys2Proof/Config.lean ====
section
/-! DEFINITION. What the part fixes: the bounds of its tables and the lengths of its timers.
The manual leaves no result value of a command open, so no free value stands here (INVENTORY.md). -/

namespace Sys2Proof.Config

/-- Held records at once (R63). -/
def maxHeld : Nat := 16
/-- Entries of a notice queue; the last is the OVERRUN (R112, R113). -/
def maxQueue : Nat := 24
/-- Members of one selection group (R19, R96). -/
def maxMembers : Nat := 128
/-- The dropped count of an OVERRUN stays here (R115). -/
def maxDropped : Nat := 255
/-- Repeat count and failed-exchange count stay here (R62, R148). -/
def maxCount : Nat := 65535
/-- Sessions-lost count stays here (R154). -/
def maxLost : Nat := 255
/-- Consecutive failures that end a session (R146). -/
def maxFailures : Nat := 3
/-- Probe timer, ms (R155, R156). -/
def probeTime : Nat := 250
/-- Holdoff timer, ms (R163). -/
def holdoffTime : Nat := 1000
/-- The longest repeat delay or period, ms (R90). -/
def longestRepeat : Nat := 2550
/-- The longest yield wait, ms (R56). -/
def longestWait : Nat := 25500
/-- The unit of the lapse time, ms (R57). -/
def lapseUnit : Nat := 1000
/-- The unit of the yield wait, ms (R56). -/
def waitUnit : Nat := 100
/-- The unit of a profile's delay, period and floor, ms (R83). -/
def repeatUnit : Nat := 10
/-- The identification byte: 0x41, with revision 1 in bits 0 to 3 (R184, R192). -/
def identification : Byte := 0x41

end Sys2Proof.Config
end

