-- ==== Sys2Proof/Machine/State.lean ====
section
/-! DEFINITION. The records of the PD-408's ten blocks, the handovers between them that one step makes and
another takes, and the values after power-on. A field that is present only in some forms of its record is an
argument of the constructor that has it, so that its absence is part of the record (R5, R62, R96, R154). -/

namespace Sys2Proof.Machine

/-! ## The binding table (chapter 1) -/

/-- How firmly a binding is held (R6): OPEN, PINNED, FIXED. -/
inductive Hold where
  | opened | pinned | fixed
  deriving DecidableEq, Repr

/-- The class, with the field that is present for it alone: profile (REPEATING), latch (TOGGLE, `true` is ON),
group (SELECT) (R5, R7). -/
inductive KeyClass where
  | momentary
  | pressOnly
  | repeating (profile : ProfileId)
  | toggle (latch : Bool)
  | select (group : GroupId)
  deriving DecidableEq, Repr

/-- Lamp modes (R8). -/
inductive LampMode where
  | dark | host | held | latch | selected
  deriving DecidableEq, Repr

/-- Lamp states and lamp values (R8, R125). -/
inductive Lamp where
  | off | on | slow | fast
  deriving DecidableEq, Repr

/-- A binding record (R5). -/
structure Binding where
  owner : Option Port
  gen : Byte
  hold : Hold
  cls : KeyClass
  code : Half
  lampMode : LampMode
  lampValue : Lamp
  deriving DecidableEq, Repr

/-- The unbound form with generation `g` (R11). -/
def Binding.unbound (g : Byte) : Binding :=
  { owner := none, gen := g, hold := .opened, cls := .momentary, code := 0, lampMode := .dark, lampValue := .off }

/-- A validated attribute set (R9, R10). Ignored items are not kept; a TOGGLE set carries the latch OFF that a
binding newly taken starts with. -/
structure AttrSet where
  cls : KeyClass
  code : Half
  lampMode : LampMode
  lampValue : Lamp
  deriving DecidableEq, Repr

/-- An attribute set as its seven bytes carry it, before validation (R190). -/
structure RawAttrs where
  cls : Byte
  code : Half
  profile : Byte
  group : Byte
  lampMode : Byte
  lampValue : Byte
  deriving DecidableEq, Repr

/-! ## The yield table (chapter 3) -/

/-- A pending ask; its id is its index in the table (R40). -/
structure Ask where
  asker : Port
  holder : Port
  pos : KeyPos
  set : AttrSet
  deadline : Time
  deriving DecidableEq, Repr

/-- Presence of a host (chapter 3, 3.6). -/
inductive Presence where
  | present | lapsed
  deriving DecidableEq, Repr

/-! ## The held-key set (chapter 4) -/

/-- The host a record is opened to and the generation at open (R62). -/
structure Opened where
  host : Port
  gen : Byte
  deriving DecidableEq, Repr

/-- The phase with its next due and, in REPEAT, its current period in ms (R62). -/
inductive Phase where
  | held
  | delay (nextDue : Time)
  | repeating (nextDue : Time) (period : Nat)
  deriving DecidableEq, Repr

/-- A held record (R62). -/
structure HeldRecord where
  pos : KeyPos
  pressedAt : Time
  openedTo : Option Opened
  closingDue : Bool
  phase : Phase
  repeatCount : Nat
  resync : Bool
  deriving DecidableEq, Repr

/-! ## Repeat profiles (chapter 5) -/

/-- A repeat profile in its stored units (R83). -/
structure Profile where
  delay : Byte
  period : Byte
  step : Byte
  floor : Byte
  deriving DecidableEq, Repr

/-! ## Selection groups (chapter 6) -/

/-- Group modes (R96). -/
inductive GroupMode where
  | strict | loose
  deriving DecidableEq, Repr

/-- An OPEN group; a FREE group is `none` in the group table (R96). -/
structure SelGroup where
  owner : Port
  mode : GroupMode
  selected : Option KeyPos
  count : Nat
  deriving DecidableEq, Repr

/-! ## Notices (chapter 7) -/

/-- The 15 notice kinds (R109). -/
inductive NoticeKind where
  | press | repeated | release | toggled | selected | blocked | deselected | withdrawn | yieldAsked | yielded
  | panelUp | panelDown | panelResync | overrun | askClosed
  deriving DecidableEq, Repr

/-- What an offering block supplies of a notice (R108). -/
structure Report where
  kind : NoticeKind
  resync : Bool
  lost : Bool
  pos : KeyPos
  code : Half
  gen : Byte
  extra : Half
  deriving DecidableEq, Repr

/-- An entry of a notice queue: what was offered and the timestamp the notice unit supplied (R108). -/
structure Notice extends Report where
  stamp : Time
  deriving DecidableEq, Repr

/-- Line modes of a NOTE line (R121). -/
inductive LineMode where
  | off | urgent | any
  deriving DecidableEq, Repr

/-! ## Panel links and sessions (chapters 9 and 10) -/

/-- The part's four orders with the data fixed as they are built (R140). -/
inductive LinkOrder where
  | identify
  | image
  | poll (bitA : Bool)
  | lamp (block : Fin 16) (states : Vector Lamp 8)
  deriving DecidableEq, Repr

/-- Which of the four orders, as the last order of a session records it (R154). -/
inductive OrderKind where
  | identify | image | poll | lamp
  deriving DecidableEq, Repr

/-- The exchange in flight: its order and its attempt number (R154). -/
structure Exchange where
  order : LinkOrder
  attempt : Nat
  deriving DecidableEq, Repr

/-- Why a session is in SYNCING (R158). -/
inductive SyncCause where
  | new | lost | reset
  deriving DecidableEq, Repr

/-- The identity of a panel (R154). -/
structure Identity where
  panelType : Byte
  keyCount : Nat
  deriving DecidableEq, Repr

/-- The session state with the fields that are present in it (R154): the time the probe or holdoff timer runs
out, the sync cause, the identity, the last order and the last POLL start. -/
inductive Session where
  | off
  | probing (runsOut : Time)
  | syncing (cause : SyncCause) (identity : Identity) (last : OrderKind)
  | up (identity : Identity) (last : OrderKind) (lastPoll : Option Time)
  | holdoff (runsOut : Time)
  deriving DecidableEq, Repr

/-- The level of LCKn: held low, held high between exchanges, or clocking an exchange (R137). -/
inductive Lck where
  | low | high | clocking
  deriving DecidableEq, Repr

/-- The seven replies of a panel, with their data (R142). -/
inductive Reply where
  | ident (panelType keyCount : Byte)
  | image (keys : BitVec 128)
  | nothing
  | edge (bitS : Bool) (press : Bool) (key : BitVec 7)
  | lost
  | accept
  | again
  deriving DecidableEq, Repr

/-- An accepted edge handed to the event engine and not yet taken by it (R151, R63). `live`: it was accepted in UP and
its session has not left UP since; an edge that is not live is discarded when it is taken (R63, R149, R158). -/
structure HandedEdge where
  press : Bool
  pos : KeyPos
  live : Bool
  deriving DecidableEq, Repr

/-- An acceptance handed to the lamp controller and not yet taken by it (R132). -/
structure Acceptance where
  block : Fin 16
  states : Vector Lamp 8
  deriving DecidableEq, Repr

/-- A link engine: its session record (R154), LCKn, and what it has been handed or has handed on.
Whether the link is enabled is its place in the link enable mask, `State.mask`. -/
structure LinkEngine where
  session : Session
  /-- The last-accepted edge bit L (R151). -/
  bitL : Bool
  failures : Nat
  failedCount : Nat
  lostCount : Nat
  inFlight : Option Exchange
  lck : Lck
  /-- An enabling (`true`) or disabling handed by SET LINKS and not yet taken (R166). -/
  handed : Option Bool
  edges : List HandedEdge
  acceptances : List Acceptance
  deriving DecidableEq, Repr

/-! ## Host ports (chapter 11) -/

/-- Answer status codes, numbered in this order (R190). -/
inductive StatusCode where
  | ok | granted | refused | owned | pinned | fixed | notOwner | freePosition | self | asked | noRoom | timeout
  | cancelled | stale | reset | badPosition | badAttr | noGroup | groupOwner | groupBusy | supervisor | short
  | unknown | notReady | none
  deriving DecidableEq, Repr

/-- A request passed to its owning block, its operands as their bytes carry them (R190). -/
inductive Request where
  | claim (first : Half) (count : Byte) (attrs : RawAttrs)
  | release (first : Half) (count : Byte)
  | pin (first : Half) (count : Byte)
  | unpin (first : Half) (count : Byte)
  | fix (first : Half) (count : Byte)
  | lamp (first : Half) (count : Byte) (value : Byte)
  | clearTable
  | leave
  | readBinding (pos : Half)
  | yieldAsk (pos : Half) (attrs : RawAttrs)
  | yieldReply (id decision : Byte)
  | openGroup (group mode : Byte)
  | closeGroup (group : Byte)
  | clearSelection (group : Byte)
  | readGroup (group : Byte)
  | setProfile (profile delay period step floor : Byte)
  | readProfile (profile : Byte)
  | setPort (lineMode lapseTime : Byte)
  | readHeld
  | readPanel (panel : Byte)
  | setLinks (mask pollInterval yieldWait : Byte)
  | readDesk
  | deskReset
  deriving DecidableEq, Repr

/-- An answer: status, request code answered, data bytes (R178). -/
structure Answer where
  status : StatusCode
  code : Byte
  data : List Byte
  deriving DecidableEq, Repr

/-- The port state with the request in progress or the answer waiting (R175). -/
inductive PortState where
  | idle
  | working (request : Request)
  | answered (answer : Answer)
  deriving DecidableEq, Repr

/-- What a transaction clocks out after its status byte, by its kind (R172).
`unread`: the kind byte is not complete. `fetch rest live`: `rest` is still to be clocked out, and is the rest of an
answer not yet consumed where `live`. `notices counted sent`: whether the count byte has been clocked out, and how
many bytes of the head entry have been clocked out (R116, R117). -/
inductive Reading where
  | unread
  | status
  | cancel
  | fetch (rest : List Byte) (live : Bool)
  | notices (counted : Bool) (sent : Nat)
  deriving DecidableEq, Repr

/-- A transaction in progress: the status byte and the notice count fixed as chip select fell (R173, R116), how many
of the counted entries are still in the queue (R117, R118), what it reads, and the bytes clocked out after the status
byte so far. -/
structure Transaction where
  statusByte : Byte
  count : Nat
  left : Nat
  reading : Reading
  out : List Byte
  deriving DecidableEq, Repr

/-- A host port unit (R175). `lapseStart` is the desk time from which the lapse timer runs, absent while it stands
or has run out (R57). -/
structure PortUnit where
  state : PortState
  refused : Bool
  lapseFlag : Bool
  lineMode : LineMode
  lapseTime : Byte
  lapseStart : Option Time
  /-- The level of the port's chip select pin. -/
  csLow : Bool
  txn : Option Transaction
  /-- The bytes that the last transaction to end had clocked out whole, the status byte first (R171, R172). -/
  lastOut : List Byte
  deriving DecidableEq, Repr

/-! ## The whole part -/

/-- The state of the PD-408 and the queue of commands that wait for it. -/
structure State where
  /-- Binding table (R5). -/
  table : Vector Binding 1024
  /-- Held-key set in press order, oldest first (R63). -/
  held : List HeldRecord
  /-- Repeat profile table (R83). -/
  profiles : Vector Profile 8
  /-- Selection group table, `none` for FREE (R96). -/
  groups : Vector (Option SelGroup) 32
  /-- Yield table, `none` for a free id (R40). -/
  asks : Vector (Option Ask) 4
  /-- Presence of each host (R57 to R60). -/
  presence : Vector Presence 4
  /-- Notice queues, the oldest entry first (R112). -/
  queues : Vector (List Notice) 4
  /-- NOTEn, `true` while the part pulls it low (R121). -/
  noteLow : Vector Bool 4
  /-- Derived images of the eight panels, by position (R126). -/
  derived : Vector Lamp 1024
  /-- Sent images, `none` for UNKNOWN (R128). -/
  sent : Vector (Option Lamp) 1024
  /-- Dirty flags, by panel × 16 + block (R128). -/
  dirty : Vector Bool 128
  /-- Link engines (R154). -/
  links : Vector LinkEngine 8
  /-- Host port units (R175). -/
  ports : Vector PortUnit 4
  /-- Desk time (R182). -/
  deskTime : Time
  /-- Link enable mask, bit n for link n (R166). -/
  mask : Byte
  /-- Poll interval, ms (R161). -/
  pollInterval : Byte
  /-- Yield wait, 100 ms (R56). -/
  yieldWait : Byte
  /-- The part is held in power-on reset: RESET is low, or power is rising (R185). -/
  resetLow : Bool
  /-- The commands that wait, first in, first out. -/
  pending : List Instr
  deriving DecidableEq, Repr

/-- No command of this model ends in a fault: the manual stops the part nowhere, so this type has no constructor. -/
inductive Fault where
  deriving DecidableEq, Repr

/-- Why a command has no meaning. -/
inductive Refusal where
  /-- Raised by an arm of exec for a command not modelled yet; no arm raises it now. Safe. -/
  | notModelled (mnemonic : String)
  deriving DecidableEq, Repr

/-- The outcome of a command. -/
abbrev Out := Host.Outcome State Fault Refusal

/-! ## Values after power-on -/

/-- The profile table after either reset (R84). -/
def defaultProfiles : Vector Profile 8 :=
  #v[⟨50, 10, 0, 10⟩, ⟨30, 5, 0, 5⟩, ⟨70, 20, 0, 20⟩, ⟨40, 15, 4, 3⟩,
     ⟨25, 10, 8, 2⟩, ⟨100, 50, 0, 50⟩, ⟨60, 8, 6, 2⟩, ⟨20, 4, 0, 4⟩]

/-- A link engine as the part leaves power-on reset: PROBING, its first IDENTIFY begun at desk time 0 (R153, R169). -/
def LinkEngine.initial : LinkEngine :=
  { session := .probing 250, bitL := false, failures := 0, failedCount := 0, lostCount := 0,
    inFlight := some ⟨.identify, 1⟩, lck := .clocking, handed := none, edges := [], acceptances := [] }

/-- A link engine while the part is held in power-on reset: no exchange and no attempt, LCKn held low, nothing sent.
It is in OFF until power-on enables it (R153, R155, R185). -/
def LinkEngine.inReset : LinkEngine :=
  { LinkEngine.initial with session := .off, inFlight := none, lck := .low }

/-- A host port after power-on (R124, R185). Its chip select pin high and its empty record of the bytes clocked out are the
model's choices (log entries 2 and 14). -/
def PortUnit.initial : PortUnit :=
  { state := .idle, refused := false, lapseFlag := false, lineMode := .any, lapseTime := 0, lapseStart := none,
    csLow := false, txn := none, lastOut := [] }

/-- The part as it leaves power-on reset (R17, R61, R80, R84, R106, R124, R135, R153, R169, R182, R185). -/
def State.reset : State :=
  { table := Vector.replicate 1024 (Binding.unbound 0)
    held := []
    profiles := defaultProfiles
    groups := Vector.replicate 32 none
    asks := Vector.replicate 4 none
    presence := Vector.replicate 4 .present
    queues := Vector.replicate 4 []
    noteLow := Vector.replicate 4 false
    derived := Vector.replicate 1024 .off
    sent := Vector.replicate 1024 none
    dirty := Vector.replicate 128 true
    links := Vector.replicate 8 LinkEngine.initial
    ports := Vector.replicate 4 PortUnit.initial
    deskTime := 0
    mask := 0xFF
    pollInterval := 5
    yieldWait := 20
    resetLow := false
    pending := [] }

end Sys2Proof.Machine
end

