-- ==== Sys2Proof/Machine/Flags.lean ====
section
/-! DEFINITION. Every flag and line the part computes: whether a timer has run out, the NOTICE and URGENT values,
the drive of a NOTE line, the status byte, the derived lamp state and the dirty flag of a block. -/

namespace Sys2Proof.Machine

/-! ## Time (R182) -/

/-- Desk time `n` ms after `t`, counted round from 65535 to 0. -/
def later (t : Time) (n : Nat) : Time :=
  t + BitVec.ofNat 16 n

/-- Desk time `now` has reached `due`, a time set at most `longest` ms ahead (R182). Desk times from 1 to `longest`
ahead of now have not been reached; a due the block takes late stays reached (log entry 3). -/
def reached (now due : Time) (longest : Nat) : Bool :=
  (due - now).toNat == 0 || longest < (due - now).toNat

/-- At least `n` ms have passed since `start`. -/
def passed (now start : Time) (n : Nat) : Bool :=
  n ≤ (now - start).toNat

/-! ## Notice values and lines (R109, R120, R121) -/

/-- The kinds marked urgent (R109). -/
def NoticeKind.urgent : NoticeKind → Bool
  | .withdrawn | .yieldAsked | .yielded | .panelDown | .overrun => true
  | .press | .repeated | .release | .toggled | .selected | .blocked | .deselected | .panelUp | .panelResync
  | .askClosed => false

/-- NOTICE: the queue holds an entry (R120). -/
def noticeValue (q : List Notice) : Bool :=
  !q.isEmpty

/-- URGENT: the queue holds an urgent entry (R120). -/
def urgentValue (q : List Notice) : Bool :=
  q.any (fun n => n.kind.urgent)

/-- Whether NOTEn is pulled low under a line mode (R121). -/
def lineDrive (m : LineMode) (q : List Notice) : Bool :=
  match m with
  | .off => false
  | .urgent => urgentValue q
  | .any => noticeValue q

/-! ## The status byte (R173, R189) -/

/-- Port state code (R189). -/
def PortState.number : PortState → Nat
  | .idle => 0
  | .working _ => 1
  | .answered _ => 2

/-- The status byte of port `p` from its port unit and queue. -/
def statusByteOf (p : Port) (u : PortUnit) (q : List Notice) : Byte :=
  BitVec.ofNat 8
    (u.state.number + 4 * (noticeValue q).toNat + 8 * (urgentValue q).toNat + 16 * u.refused.toNat
      + 32 * u.lapseFlag.toNat + 64 * (decide (p = 0)).toNat)

/-- The LAPSED bit of a status byte (R189). -/
def showsLapsed (b : Byte) : Bool :=
  b.getLsbD 5

/-! ## The data output of a port (R185, R188) -/

/-- SDOn is driven, while chip select n is low; at other times, and while the part is held in power-on reset, it is
left at high impedance (R185, R188). -/
def State.sdoDriven (s : State) (p : Port) : Bool :=
  s.ports[p].csLow && !s.resetLow

/-! ## Positions, panels and blocks (R128) -/

/-- The panel of a position. -/
def panelOf (q : KeyPos) : LinkId :=
  ⟨q.1 / 128, by omega⟩

/-- The key number of a position. -/
def keyOf (q : KeyPos) : Nat :=
  q.1 % 128

/-- Position panel × 128 + key. -/
def posOf (n : LinkId) (k : Fin 128) : KeyPos :=
  ⟨n.1 * 128 + k.1, by omega⟩

/-- The number of a position's block among all 128 (panel × 16 + block). -/
def blockOf (q : KeyPos) : Fin 128 :=
  ⟨q.1 / 8, by omega⟩

/-- Block `b` of panel `n` among all 128. -/
def panelBlock (n : LinkId) (b : Fin 16) : Fin 128 :=
  ⟨n.1 * 16 + b.1, by omega⟩

/-- The `i`-th lamp of a block. -/
def lampPos (b : Fin 128) (i : Fin 8) : KeyPos :=
  ⟨b.1 * 8 + i.1, by omega⟩

/-! ## Lamps (R125, R128) -/

/-- The held record of a position, if there is one (R63). -/
def State.heldAt (s : State) (q : KeyPos) : Option HeldRecord :=
  s.held.find? (fun r => r.pos == q)

/-- The lamp state a position's binding and the blocks it names call for (R125). -/
def State.lampFor (s : State) (q : KeyPos) : Lamp :=
  let b := s.table[q]
  match b.owner, b.lampMode with
  | none, _ => .off
  | some _, .dark => .off
  | some _, .host => b.lampValue
  | some _, .held => if (s.heldAt q).isSome then .on else .off
  | some _, .latch =>
    match b.cls with
    | .toggle true => .on
    | _ => .off
  | some _, .selected =>
    match b.cls with
    | .select g =>
      match s.groups[g] with
      | some grp => if grp.selected = some q then .on else .off
      | none => .off
    | _ => .off

/-- A block is dirty while a derived state differs from its sent state; UNKNOWN differs from all (R128). -/
def dirtyFlag (derived : Vector Lamp 1024) (sent : Vector (Option Lamp) 1024) (b : Fin 128) : Bool :=
  (List.finRange 8).any (fun i => sent[lampPos b i] != some derived[lampPos b i])

/-! ## Link enable mask (R166) -/

/-- The place of link `n` in the link enable mask. -/
def State.enabled (s : State) (n : LinkId) : Bool :=
  s.mask.getLsbD n.1

end Sys2Proof.Machine
end

