-- ==== Sys2Proof/Machine/Operands.lean ====
section
/-! DEFINITION. Every format that crosses a host port (chapter 12): transaction kinds, requests and their operands,
attribute sets, ranges, answers, notice records and the layouts of the read requests. -/

namespace Sys2Proof.Machine

/-- The two bytes of a value, most significant first (R188). -/
def bytes2 (w : Half) : List Byte :=
  [w.extractLsb' 8 8, w.extractLsb' 0 8]

/-- A two-byte value, most significant byte first (R188). -/
def half (hi lo : Byte) : Half :=
  hi ++ lo

/-- A number as one byte. -/
def byte (n : Nat) : Byte :=
  BitVec.ofNat 8 n

/-! ## Codes (R188 to R191) -/

/-- Answer status codes (R190). -/
def StatusCode.number : StatusCode → Nat
  | .ok => 0x00 | .granted => 0x01 | .refused => 0x02 | .owned => 0x03 | .pinned => 0x04 | .fixed => 0x05
  | .notOwner => 0x06 | .freePosition => 0x07 | .self => 0x08 | .asked => 0x09 | .noRoom => 0x0A
  | .timeout => 0x0B | .cancelled => 0x0C | .stale => 0x0D | .reset => 0x0E | .badPosition => 0x0F
  | .badAttr => 0x10 | .noGroup => 0x11 | .groupOwner => 0x12 | .groupBusy => 0x13 | .supervisor => 0x14
  | .short => 0x15 | .unknown => 0x16 | .notReady => 0x17 | .none => 0x18

/-- Request codes (R190). -/
def Request.code : Request → Byte
  | .claim .. => 0x10
  | .release .. => 0x11
  | .pin .. => 0x12
  | .unpin .. => 0x13
  | .fix .. => 0x14
  | .lamp .. => 0x15
  | .clearTable => 0x16
  | .leave => 0x17
  | .readBinding .. => 0x18
  | .yieldAsk .. => 0x20
  | .yieldReply .. => 0x21
  | .openGroup .. => 0x30
  | .closeGroup .. => 0x31
  | .clearSelection .. => 0x32
  | .readGroup .. => 0x33
  | .setProfile .. => 0x40
  | .readProfile .. => 0x41
  | .setPort .. => 0x50
  | .readHeld => 0x60
  | .readPanel .. => 0x61
  | .setLinks .. => 0x70
  | .readDesk => 0x71
  | .deskReset => 0x72

/-- The requests marked (sup) (R190). -/
def Request.supervisorOnly : Request → Bool
  | .fix .. | .clearTable | .setProfile .. | .setLinks .. | .deskReset => true
  | .claim .. | .release .. | .pin .. | .unpin .. | .lamp .. | .leave | .readBinding .. | .yieldAsk ..
  | .yieldReply .. | .openGroup .. | .closeGroup .. | .clearSelection .. | .readGroup .. | .readProfile ..
  | .setPort .. | .readHeld | .readPanel .. | .readDesk => false

/-- The operand bytes a request code requires, absent for a code that is none of the 23 (R190). -/
def operandLength (code : Byte) : Option Nat :=
  match code.toNat with
  | 0x10 => some 10
  | 0x11 => some 3
  | 0x12 => some 3
  | 0x13 => some 3
  | 0x14 => some 3
  | 0x15 => some 4
  | 0x16 => some 0
  | 0x17 => some 0
  | 0x18 => some 2
  | 0x20 => some 9
  | 0x21 => some 2
  | 0x30 => some 2
  | 0x31 => some 1
  | 0x32 => some 1
  | 0x33 => some 1
  | 0x40 => some 5
  | 0x41 => some 1
  | 0x50 => some 2
  | 0x60 => some 0
  | 0x61 => some 1
  | 0x70 => some 3
  | 0x71 => some 0
  | 0x72 => some 0
  | _ => none

/-- The request that a code and its operand bytes spell; bytes beyond those required are ignored (R176, R190). -/
def readRequest (code : Byte) (ops : List Byte) : Option Request :=
  match code.toNat, ops with
  | 0x10, f1 :: f0 :: n :: c :: k1 :: k0 :: pr :: g :: m :: v :: _ =>
    some (.claim (half f1 f0) n ⟨c, half k1 k0, pr, g, m, v⟩)
  | 0x11, f1 :: f0 :: n :: _ => some (.release (half f1 f0) n)
  | 0x12, f1 :: f0 :: n :: _ => some (.pin (half f1 f0) n)
  | 0x13, f1 :: f0 :: n :: _ => some (.unpin (half f1 f0) n)
  | 0x14, f1 :: f0 :: n :: _ => some (.fix (half f1 f0) n)
  | 0x15, f1 :: f0 :: n :: v :: _ => some (.lamp (half f1 f0) n v)
  | 0x16, _ => some .clearTable
  | 0x17, _ => some .leave
  | 0x18, f1 :: f0 :: _ => some (.readBinding (half f1 f0))
  | 0x20, f1 :: f0 :: c :: k1 :: k0 :: pr :: g :: m :: v :: _ =>
    some (.yieldAsk (half f1 f0) ⟨c, half k1 k0, pr, g, m, v⟩)
  | 0x21, i :: d :: _ => some (.yieldReply i d)
  | 0x30, g :: m :: _ => some (.openGroup g m)
  | 0x31, g :: _ => some (.closeGroup g)
  | 0x32, g :: _ => some (.clearSelection g)
  | 0x33, g :: _ => some (.readGroup g)
  | 0x40, p :: d :: e :: t :: f :: _ => some (.setProfile p d e t f)
  | 0x41, p :: _ => some (.readProfile p)
  | 0x50, m :: l :: _ => some (.setPort m l)
  | 0x60, _ => some .readHeld
  | 0x61, n :: _ => some (.readPanel n)
  | 0x70, m :: p :: w :: _ => some (.setLinks m p w)
  | 0x71, _ => some .readDesk
  | 0x72, _ => some .deskReset
  | _, _ => none

/-- The operand bytes of a request, in order (R190). -/
def Request.operands : Request → List Byte
  | .claim f n a => bytes2 f ++ [n, a.cls] ++ bytes2 a.code ++ [a.profile, a.group, a.lampMode, a.lampValue]
  | .release f n => bytes2 f ++ [n]
  | .pin f n => bytes2 f ++ [n]
  | .unpin f n => bytes2 f ++ [n]
  | .fix f n => bytes2 f ++ [n]
  | .lamp f n v => bytes2 f ++ [n, v]
  | .clearTable => []
  | .leave => []
  | .readBinding f => bytes2 f
  | .yieldAsk f a => bytes2 f ++ [a.cls] ++ bytes2 a.code ++ [a.profile, a.group, a.lampMode, a.lampValue]
  | .yieldReply i d => [i, d]
  | .openGroup g m => [g, m]
  | .closeGroup g => [g]
  | .clearSelection g => [g]
  | .readGroup g => [g]
  | .setProfile p d e t f => [p, d, e, t, f]
  | .readProfile p => [p]
  | .setPort m l => [m, l]
  | .readHeld => []
  | .readPanel n => [n]
  | .setLinks m p w => [m, p, w]
  | .readDesk => []
  | .deskReset => []

/-- Lamp modes by number (R190). -/
def lampModeOf (b : Byte) : Option LampMode :=
  match b.toNat with
  | 0 => some .dark
  | 1 => some .host
  | 2 => some .held
  | 3 => some .latch
  | 4 => some .selected
  | _ => none

/-- Lamp values by number (R190). -/
def lampValueOf (b : Byte) : Option Lamp :=
  match b.toNat with
  | 0 => some .off
  | 1 => some .on
  | 2 => some .slow
  | 3 => some .fast
  | _ => none

/-- Group modes by number (R190). -/
def groupModeOf (b : Byte) : Option GroupMode :=
  match b.toNat with
  | 0 => some .strict
  | 1 => some .loose
  | _ => none

/-- Line modes by number (R190). -/
def lineModeOf (b : Byte) : Option LineMode :=
  match b.toNat with
  | 0 => some .off
  | 1 => some .urgent
  | 2 => some .any
  | _ => none

/-- A byte as an index below `n`. -/
def index (n : Nat) (b : Byte) : Option (Fin n) :=
  if h : b.toNat < n then some ⟨b.toNat, h⟩ else none

/-- The class of a set with the item it carries: the profile item is examined for REPEATING alone, the group item
for SELECT alone (R9). -/
def classOf (a : RawAttrs) : Option KeyClass :=
  match a.cls.toNat with
  | 0 => some .momentary
  | 1 => some .pressOnly
  | 2 => (index 8 a.profile).map .repeating
  | 3 => some (.toggle false)
  | 4 => (index 32 a.group).map .select
  | _ => none

/-- Lamp modes LATCH and SELECTED require the classes TOGGLE and SELECT (R9). -/
def lampModeFits (c : KeyClass) (m : LampMode) : Bool :=
  match m, c with
  | .latch, .toggle _ => true
  | .latch, _ => false
  | .selected, .select _ => true
  | .selected, _ => false
  | .dark, _ => true
  | .host, _ => true
  | .held, _ => true

/-- Attribute validation; `none` is BAD_ATTR (R9, R10). -/
def RawAttrs.validate (a : RawAttrs) : Option AttrSet :=
  match classOf a, lampModeOf a.lampMode, lampValueOf a.lampValue with
  | some c, some m, some v =>
    if lampModeFits c m then some { cls := c, code := a.code, lampMode := m, lampValue := v } else none
  | _, _, _ => none

/-! ## Positions and ranges (R1, R2) -/

/-- A single position operand; `none` is BAD_POSITION (R1). -/
def position (w : Half) : Option KeyPos :=
  if h : w.toNat < 1024 then some ⟨w.toNat, h⟩ else none

/-- The range check (R2). -/
def rangeOk (first : Half) (count : Byte) : Bool :=
  first.toNat ≤ 1023 && 1 ≤ count.toNat && count.toNat ≤ 128 && first.toNat % 128 + count.toNat ≤ 128

/-- The positions of a range in ascending order; `none` is BAD_POSITION (R2). -/
def rangeOf (first : Half) (count : Byte) : Option (List KeyPos) :=
  if rangeOk first count then some ((List.range count.toNat).map (fun i => Fin.ofNat 1024 (first.toNat + i)))
  else none

/-! ## Answers (R188) -/

/-- An answer as it is clocked out: status, request code, data length, data (R179, R188). -/
def Answer.bytes (a : Answer) : List Byte :=
  [byte a.status.number, a.code, byte a.data.length] ++ a.data

/-! ## The notice record (R191) -/

/-- Notice kind codes (R191). -/
def NoticeKind.number : NoticeKind → Nat
  | .press => 0x01 | .repeated => 0x02 | .release => 0x03 | .toggled => 0x04 | .selected => 0x05
  | .blocked => 0x06 | .deselected => 0x07 | .withdrawn => 0x08 | .yieldAsked => 0x09 | .yielded => 0x0A
  | .panelUp => 0x0B | .panelDown => 0x0C | .panelResync => 0x0D | .overrun => 0x0E | .askClosed => 0x0F

/-- The ten bytes of a notice record (R191). -/
def Notice.bytes (n : Notice) : List Byte :=
  [byte n.kind.number]
    ++ bytes2 (BitVec.ofNat 16 (32768 * n.resync.toNat + 16384 * n.lost.toNat + n.pos.1))
    ++ bytes2 n.code ++ [n.gen] ++ bytes2 n.extra ++ bytes2 n.stamp

/-! ## Read-answer layouts (R192) -/

/-- A host, or 0xFF for none. -/
def hostByte : Option Port → Byte
  | some p => byte p.1
  | none => 0xFF

/-- Hold numbers. -/
def Hold.number : Hold → Nat
  | .opened => 0 | .pinned => 1 | .fixed => 2

/-- Class numbers. -/
def KeyClass.number : KeyClass → Nat
  | .momentary => 0 | .pressOnly => 1 | .repeating _ => 2 | .toggle _ => 3 | .select _ => 4

/-- The profile field, 0xFF when absent. -/
def KeyClass.profileByte : KeyClass → Byte
  | .repeating p => byte p.1
  | .momentary | .pressOnly | .toggle _ | .select _ => 0xFF

/-- The group field, 0xFF when absent. -/
def KeyClass.groupByte : KeyClass → Byte
  | .select g => byte g.1
  | .momentary | .pressOnly | .repeating _ | .toggle _ => 0xFF

/-- The latch field, 0xFF when absent. -/
def KeyClass.latchByte : KeyClass → Byte
  | .toggle l => byte l.toNat
  | .momentary | .pressOnly | .repeating _ | .select _ => 0xFF

/-- Lamp mode numbers. -/
def LampMode.number : LampMode → Nat
  | .dark => 0 | .host => 1 | .held => 2 | .latch => 3 | .selected => 4

/-- Lamp codes (R193), which are also the lamp value numbers (R190). -/
def Lamp.number : Lamp → Nat
  | .off => 0 | .on => 1 | .slow => 2 | .fast => 3

/-- READ BINDING, 11 bytes. -/
def Binding.bytes (b : Binding) : List Byte :=
  [hostByte b.owner, b.gen, byte b.hold.number, byte b.cls.number] ++ bytes2 b.code
    ++ [b.cls.profileByte, b.cls.groupByte, byte b.lampMode.number, byte b.lampValue.number, b.cls.latchByte]

/-- Phase numbers. -/
def Phase.number : Phase → Nat
  | .held => 0 | .delay _ => 1 | .repeating _ _ => 2

/-- The next due of a record, present in DELAY and REPEAT (R62). -/
def Phase.due : Phase → Option Time
  | .held => none
  | .delay d => some d
  | .repeating d _ => some d

/-- The current period, present in REPEAT (R62). -/
def Phase.period : Phase → Option Nat
  | .held => none
  | .delay _ => none
  | .repeating _ p => some p

/-- One record of READ HELD, 12 bytes. -/
def HeldRecord.bytes (r : HeldRecord) : List Byte :=
  bytes2 (BitVec.ofNat 16
      (32768 * r.resync.toNat + 16384 * r.closingDue.toNat + 4096 * r.phase.number + r.pos.1))
    ++ [hostByte (r.openedTo.map Opened.host), (r.openedTo.map Opened.gen).getD 0]
    ++ bytes2 r.pressedAt ++ bytes2 (r.phase.due.getD 0) ++ bytes2 (BitVec.ofNat 16 (r.phase.period.getD 0))
    ++ bytes2 (BitVec.ofNat 16 r.repeatCount)

/-- READ HELD: the count and the records in press order. -/
def heldBytes (l : List HeldRecord) : List Byte :=
  byte l.length :: l.flatMap HeldRecord.bytes

/-- Group mode numbers. -/
def GroupMode.number : GroupMode → Nat
  | .strict => 0 | .loose => 1

/-- READ GROUP, 6 bytes. -/
def groupBytes : Option SelGroup → List Byte
  | none => [0, 0xFF, 0xFF, 0xFF, 0xFF, 0]
  | some g =>
    [1, byte g.owner.1, byte g.mode.number]
      ++ (match g.selected with
          | some q => bytes2 (BitVec.ofNat 16 q.1)
          | none => [0xFF, 0xFF])
      ++ [byte g.count]

/-- READ PROFILE, 4 bytes. -/
def Profile.bytes (p : Profile) : List Byte :=
  [p.delay, p.period, p.step, p.floor]

/-- Session state numbers. -/
def Session.number : Session → Nat
  | .off => 0 | .probing _ => 1 | .syncing .. => 2 | .up .. => 3 | .holdoff _ => 4

/-- The identity, present in SYNCING and UP (R154). -/
def Session.identity : Session → Option Identity
  | .syncing _ i _ => some i
  | .up i _ _ => some i
  | .off | .probing _ | .holdoff _ => none

/-- READ PANEL, 8 bytes. -/
def panelBytes (enabled : Bool) (l : LinkEngine) : List Byte :=
  [byte l.session.number, byte enabled.toNat, (l.session.identity.map Identity.panelType).getD 0,
    byte ((l.session.identity.map Identity.keyCount).getD 0), byte l.failures]
    ++ bytes2 (BitVec.ofNat 16 l.failedCount) ++ [byte l.lostCount]

/-- READ DESK, 6 bytes. -/
def State.deskBytes (s : State) : List Byte :=
  [Config.identification] ++ bytes2 s.deskTime ++ [s.mask, s.pollInterval, s.yieldWait]

end Sys2Proof.Machine
end

