-- ==== Sys2Proof/Machine/Ops.lean ====
section
/-! DEFINITION. The operations that the meanings share: answers, notice queues, held records, lamps, the stages of a
change of owner (R15), the endings of an ask, the exchanges of a link. Each is a function of the whole state that
changes only what its rule names. -/

namespace Sys2Proof.Machine

/-! ## Field updates -/

/-- The binding record of `q` becomes `b`. -/
def State.setBinding (s : State) (q : KeyPos) (b : Binding) : State :=
  { s with table := upd s.table q b }

/-- Group `g` becomes `x`. -/
def State.setGroup (s : State) (g : GroupId) (x : Option SelGroup) : State :=
  { s with groups := upd s.groups g x }

/-- Entry `i` of the yield table becomes `x`. -/
def State.setAsk (s : State) (i : AskId) (x : Option Ask) : State :=
  { s with asks := upd s.asks i x }

/-- Port unit `p` becomes `u`. -/
def State.setPort (s : State) (p : Port) (u : PortUnit) : State :=
  { s with ports := upd s.ports p u }

/-- Link engine `n` becomes `l`. -/
def State.setLink (s : State) (n : LinkId) (l : LinkEngine) : State :=
  { s with links := upd s.links n l }

/-- The presence of host `p` becomes `x`. -/
def State.setPresence (s : State) (p : Port) (x : Presence) : State :=
  { s with presence := upd s.presence p x }

/-! ## Requests and answers (R175, R178) -/

/-- The request in progress on port `p`. -/
def State.requestOf (s : State) (p : Port) : Option Request :=
  match s.ports[p].state with
  | .working r => some r
  | .idle => none
  | .answered _ => none

/-- The owning block's answer: a WORKING port goes ANSWERED with status, request code and data (R178). -/
def State.answer (s : State) (p : Port) (st : StatusCode) (data : List Byte) : State :=
  match s.ports[p].state with
  | .working r => s.setPort p { s.ports[p] with state := .answered ⟨st, r.code, data⟩ }
  | .idle => s
  | .answered _ => s

/-! ## Notice queues (R113 to R115, R121, R123) -/

/-- NOTEn follows queue n and the line mode of port n (R121). -/
def State.driveNote (s : State) (p : Port) : State :=
  { s with noteLow := upd s.noteLow p (lineDrive s.ports[p].lineMode s.queues[p]) }

/-- The dropped count of an OVERRUN rises by 1 and stays at 255 (R115). -/
def raiseDropped (n : Notice) : Notice :=
  if n.kind = .overrun then
    { n with extra := if n.extra.toNat < Config.maxDropped then n.extra + 1 else n.extra }
  else n

/-- An offered REPEAT renews the newest entry: a REPEAT for the same position and generation (R114). -/
def renews (newest : Notice) (r : Report) : Bool :=
  decide (r.kind = .repeated) && decide (newest.kind = .repeated) && decide (newest.pos = r.pos)
    && decide (newest.gen = r.gen)

/-- Whether the queue's newest entry is renewed by an offer. -/
def renewsLast (q : List Notice) (r : Report) : Bool :=
  match q.getLast? with
  | some n => renews n r
  | none => false

/-- The newest entry takes the count of the offered REPEAT and the present desk time (R114). -/
def renewLast (now : Time) (q : List Notice) (r : Report) : List Notice :=
  match q.getLast? with
  | some n => q.dropLast ++ [{ n with extra := r.extra, stamp := now }]
  | none => q

/-- The OVERRUN as it is placed, with dropped count 1 (R113, R109). -/
def overrunNotice (now : Time) : Notice :=
  { kind := .overrun, resync := false, lost := false, pos := 0, code := 0, gen := 0, extra := 1, stamp := now }

/-- The queue after an offer: the first case of R113 that applies. -/
def offerTo (now : Time) (q : List Notice) (r : Report) : List Notice :=
  if q.any (fun n => decide (n.kind = .overrun)) then q.map raiseDropped
  else if renewsLast q r then renewLast now q r
  else if Config.maxQueue ≤ q.length + 1 then q ++ [overrunNotice now]
  else q ++ [{ r with stamp := now }]

/-- A notice is offered to the queue of host `p`, and NOTEn follows (R113, R121). -/
def State.offer (s : State) (p : Port) (r : Report) : State :=
  { s with queues := upd s.queues p (offerTo s.deskTime s.queues[p] r) }.driveNote p

/-- A report about key `q` with the code and generation of its binding as it stands (R108, R109). -/
def State.keyReport (s : State) (k : NoticeKind) (q : KeyPos) (extra : Half) (resync lost : Bool) : Report :=
  { kind := k, resync := resync, lost := lost, pos := q, code := s.table[q].code, gen := s.table[q].gen,
    extra := extra }

/-- A panel notice, offered to all four queues (R109, R111). -/
def State.panelNotice (s : State) (k : NoticeKind) (n : LinkId) (extra : Half) : State :=
  (List.finRange 4).foldl
    (fun t p => t.offer p
      { kind := k, resync := false, lost := false, pos := posOf n 0, code := 0, gen := 0, extra := extra }) s

/-- The head entry of a read-out is gone: none of its bytes has been clocked out (R118). -/
def Reading.emptied : Reading → Reading
  | .notices c _ => .notices c 0
  | .unread => .unread
  | .status => .status
  | .cancel => .cancel
  | .fetch r l => .fetch r l

/-- A transaction in progress on a port whose queue is emptied: no counted entry is left (R118). -/
def Transaction.emptied (t : Transaction) : Transaction :=
  { t with left := 0, reading := t.reading.emptied }

/-- The port unit of a queue that is emptied (R118). -/
def PortUnit.emptied (u : PortUnit) : PortUnit :=
  { u with txn := u.txn.map Transaction.emptied }

/-- Queue `p` is emptied, its NOTE line released, and a NOTICES transaction in progress on the port reads 0x00 from
here on (R123, R124, R118). -/
def State.emptyQueue (s : State) (p : Port) : State :=
  ({ s with queues := upd s.queues p [] }.setPort p s.ports[p].emptied).driveNote p

/-! ## Lamps (R126 to R129) -/

/-- The derived state of `q` is derived anew and the dirty flag of its block recomputed (R126, R128). -/
def State.rederive (s : State) (q : KeyPos) : State :=
  let d := upd s.derived q (s.lampFor q)
  { s with derived := d, dirty := upd s.dirty (blockOf q) (dirtyFlag d s.sent (blockOf q)) }

/-- Every sent state of panel `n` becomes UNKNOWN, and its 16 blocks dirty (R129). -/
def State.forgetSent (s : State) (n : LinkId) : State :=
  { s with
    sent := tabulate 1024 (fun q => if panelOf q = n then none else s.sent[q])
    dirty := tabulate 128 (fun b => if b.1 / 16 = n.1 then true else s.dirty[b]) }

/-- The 8 derived states of a block (R130). -/
def State.blockStates (s : State) (b : Fin 128) : Vector Lamp 8 :=
  tabulate 8 (fun i => s.derived[lampPos b i])

/-- The lowest-numbered dirty block of panel `n` (R130). -/
def State.lowestDirty (s : State) (n : LinkId) : Option (Fin 16) :=
  (List.finRange 16).find? (fun b => s.dirty[panelBlock n b])

/-! ## Held records (R62, R63, R70, R71) -/

/-- The records of `q` become `f` of themselves. -/
def State.modifyHeld (s : State) (q : KeyPos) (f : HeldRecord → HeldRecord) : State :=
  { s with held := s.held.map (fun r => if r.pos = q then f r else r) }

/-- The record of `q` is removed; the order of the others is kept (R63). -/
def State.removeHeld (s : State) (q : KeyPos) : State :=
  { s with held := s.held.filter (fun r => decide (r.pos ≠ q)) }

/-- A record left opened to no host: closing due no, phase HELD, its place, press time, count and resync kept (R70). -/
def HeldRecord.withdrawn (r : HeldRecord) : HeldRecord :=
  { r with openedTo := none, closingDue := false, phase := .held }

/-- A count in an extra field. -/
def countHalf (n : Nat) : Half :=
  BitVec.ofNat 16 n

/-- Withdrawal of the press of `q`; without a notice where `announce` is no (R70, R36). -/
def State.withdraw (s : State) (announce : Bool) (q : KeyPos) : State :=
  match s.heldAt q with
  | none => s
  | some r =>
    match r.openedTo with
    | none => s
    | some o =>
      let s1 :=
        if announce && r.closingDue then
          s.offer o.host (s.keyReport .withdrawn q (countHalf r.repeatCount) r.resync false)
        else s
      s1.modifyHeld q HeldRecord.withdrawn

/-- Release processing of `q` (R71); `resync` while reconciliation runs, `lost` at session end (R73, R78). -/
def State.releaseKey (s : State) (resync lost : Bool) (q : KeyPos) : State :=
  match s.heldAt q with
  | none => s
  | some r =>
    let s1 :=
      match r.openedTo with
      | some o =>
        if r.closingDue then
          s.offer o.host (s.keyReport .release q (countHalf r.repeatCount) (resync || r.resync) lost)
        else s
      | none => s
    (s1.removeHeld q).rederive q

/-! ## Group membership (R97, R104) -/

/-- The group of a SELECT binding. -/
def KeyClass.group? : KeyClass → Option GroupId
  | .select g => some g
  | .momentary | .pressOnly | .repeating _ | .toggle _ => none

/-- A SELECT binding leaves its group: the count falls by 1, and if it was the selected position the selection
becomes none with DESELECTED and LOST to its owner, or without a notice where `announce` is no (R104, R36). -/
def State.leaveGroup (s : State) (announce : Bool) (q : KeyPos) : State :=
  match s.table[q].cls.group? with
  | none => s
  | some g =>
    match s.groups[g] with
    | none => s
    | some grp =>
      if grp.selected = some q then
        let s1 := s.setGroup g (some { grp with count := grp.count - 1, selected := none })
        match s.table[q].owner with
        | some h => if announce then s1.offer h (s1.keyReport .deselected q (countHalf g.1) false true) else s1
        | none => s1
      else s.setGroup g (some { grp with count := grp.count - 1 })

/-- A SELECT binding just written joins its group without taking the selection (R97). -/
def State.joinGroup (s : State) (q : KeyPos) : State :=
  match s.table[q].cls.group? with
  | none => s
  | some g =>
    match s.groups[g] with
    | none => s
    | some grp => s.setGroup g (some { grp with count := grp.count + 1 })

/-! ## The binding record in a change of owner (R10 to R12, R15 stage 3) -/

/-- The record becomes the requester's: generation +1, hold OPEN, the set stored (R10, R12, R20). -/
def Binding.take (b : Binding) (h : Port) (a : AttrSet) : Binding :=
  { owner := some h, gen := b.gen + 1, hold := .opened, cls := a.cls, code := a.code, lampMode := a.lampMode,
    lampValue := a.lampValue }

/-- Stage 3 for a new owner. -/
def State.bindTo (s : State) (h : Port) (a : AttrSet) (q : KeyPos) : State :=
  s.setBinding q (s.table[q].take h a)

/-- Stage 3 for a binding that loses its owner: the unbound form, generation +1 (R11, R12). -/
def State.unbind (s : State) (q : KeyPos) : State :=
  s.setBinding q (Binding.unbound (s.table[q].gen + 1))

/-- An unowned position is taken for `h`: stages 3, 4 and 6 (R20). -/
def State.acquire (s : State) (h : Port) (a : AttrSet) (q : KeyPos) : State :=
  ((s.bindTo h a q).joinGroup q).rederive q

/-! ## The yield table (R40, R46 to R53) -/

/-- The pending ask of a position. -/
def State.askOn (s : State) (q : KeyPos) : Option (AskId × Ask) :=
  (List.finRange 4).findSome? (fun i => (s.asks[i]).bind (fun a => if a.pos = q then some (i, a) else none))

/-- The pending ask whose asker is host `p`. -/
def State.askOf (s : State) (p : Port) : Option (AskId × Ask) :=
  (List.finRange 4).findSome? (fun i => (s.asks[i]).bind (fun a => if a.asker = p then some (i, a) else none))

/-- The lowest free ask id (R40). -/
def State.freeAsk (s : State) : Option AskId :=
  (List.finRange 4).find? (fun i => (s.asks[i]).isNone)

/-- The entry `id`, if there is one, is removed. -/
def State.removeAsk (s : State) : Option AskId → State
  | none => s
  | some i => s.setAsk i none

/-- A notice of the yield unit: it carries a binding's code and generation and neither flag (R110). -/
def yieldReport (k : NoticeKind) (q : KeyPos) (b : Binding) (extra : Half) : Report :=
  { kind := k, resync := false, lost := false, pos := q, code := b.code, gen := b.gen, extra := extra }

/-- Two values in one extra field (R191). -/
def extraPair (hi lo : Nat) : Half :=
  BitVec.ofNat 16 (256 * hi + lo)

/-- GRANTED with the generation the grant left (R46). -/
def State.answerGranted (s : State) (asker : Port) (q : KeyPos) : State :=
  s.answer asker .granted [s.table[q].gen]

/-- The grant of R47: withdrawal, member removal, YIELDED to the holder, the record written for the asker, its
group joined, the entry removed, the asker answered, the lamp re-derived. -/
def State.grant (s : State) (entry : Option AskId) (asker holder : Port) (a : AttrSet) (q : KeyPos) : State :=
  let b := s.table[q]
  let s2 := (s.withdraw true q).leaveGroup true q
  let s3 := s2.offer holder (yieldReport .yielded q b (countHalf asker.1))
  let s4 := (s3.bindTo asker a q).joinGroup q
  ((s4.removeAsk entry).answerGranted asker q).rederive q

/-- The grant that a RELEASE or LEAVE of `q` brings about, `b` being the binding as the holder released it (R48).
YIELDED is offered unless the holder leaves (R37). -/
def State.grantReleased (s : State) (announce : Bool) (b : Binding) (q : KeyPos) : State :=
  match s.askOn q with
  | none => s
  | some (i, a) =>
    let s1 := if announce then s.offer a.holder (yieldReport .yielded q b (countHalf a.asker.1)) else s
    let s2 := (s1.bindTo a.asker a.set q).joinGroup q
    ((s2.removeAsk (some i)).answerGranted a.asker q).rederive q

/-- A position loses its owner by RELEASE, or silently by LEAVE: the stages of R15 with the grant in stage 5
(R25 to R27, R36, R37). -/
def State.releasePos (s : State) (announce : Bool) (q : KeyPos) : State :=
  let b := s.table[q]
  ((((s.withdraw announce q).leaveGroup announce q).unbind q).grantReleased announce b q).rederive q

/-- Why an ask closed, as ASK_CLOSED reports it (R191). -/
inductive CloseReason where
  | cancelled | timedOut | reset
  deriving DecidableEq, Repr

/-- Reason codes (R191). -/
def CloseReason.number : CloseReason → Nat
  | .cancelled => 1 | .timedOut => 2 | .reset => 3

/-- An ask ends without a grant and without a notice: the entry is removed and the asker answered (R49, R52). -/
def State.endAsk (s : State) (i : AskId) (a : Ask) (st : StatusCode) : State :=
  (s.removeAsk (some i)).answer a.asker st []

/-- An ask ends without a grant, and ASK_CLOSED is offered to the holder with the code and generation of its
binding `b` (R50, R51, R53). -/
def State.closeAsk (s : State) (i : AskId) (a : Ask) (st : StatusCode) (why : CloseReason) (b : Binding) : State :=
  (s.endAsk i a st).offer a.holder (yieldReport .askClosed a.pos b (extraPair i.1 why.number))

/-- The ask pending on `q`, if any, ends with `st` and no notice (R28, R30). -/
def State.endAskOn (s : State) (q : KeyPos) (st : StatusCode) : State :=
  match s.askOn q with
  | none => s
  | some (i, a) => s.endAsk i a st

/-- The ask pending on `q`, if any, ends RESET (R35, R53); `b` is the holder's binding before the event. -/
def State.resetAskOn (s : State) (q : KeyPos) (b : Binding) : State :=
  match s.askOn q with
  | none => s
  | some (i, a) => s.closeAsk i a .reset .reset b

/-! ## Range requests (R3, R4) -/

/-- The first position that a check refuses, with its offset (R3). -/
def firstFailure (check : KeyPos → Option StatusCode) : Nat → List KeyPos → Option (StatusCode × Nat)
  | _, [] => none
  | k, q :: qs =>
    match check q with
    | some st => some (st, k)
    | none => firstFailure check (k + 1) qs

/-- A range request: the range check, the check of the request as a whole, the check of the positions in ascending
order, then the effect at each position in ascending order (R2 to R4). -/
def State.rangeRequest (s : State) (p : Port) (first : Half) (count : Byte) (whole : Option StatusCode)
    (failure : List KeyPos → Option (StatusCode × Nat)) (effect : State → KeyPos → State) : State :=
  match rangeOf first count with
  | none => s.answer p .badPosition [0]
  | some qs =>
    match whole with
    | some st => s.answer p st [0]
    | none =>
      match failure qs with
      | some (st, k) => s.answer p st [byte k]
      | none => (qs.foldl effect s).answer p .ok [0]

/-- Every position, in ascending order. -/
def State.overTable (s : State) (effect : State → KeyPos → State) : State :=
  (List.finRange 1024).foldl effect s

/-! ## Exchanges (R143, R146, R154) -/

/-- Which of the four orders an order is. -/
def LinkOrder.kind : LinkOrder → OrderKind
  | .identify => .identify
  | .image => .image
  | .poll _ => .poll
  | .lamp _ _ => .lamp

/-- An exchange begins: the attempt number is one more than the consecutive failures (R146), LCKn is clocked. -/
def State.beginOrder (s : State) (n : LinkId) (o : LinkOrder) : State :=
  s.setLink n { s.links[n] with inFlight := some ⟨o, s.links[n].failures + 1⟩, lck := .clocking }

/-- The exchange in flight has ended, or is abandoned by an engine that goes on; LCKn rests high (R143). -/
def LinkEngine.ended (l : LinkEngine) : LinkEngine :=
  { l with inFlight := none, lck := .high }

end Sys2Proof.Machine
end

