-- ==== Sys2Proof/Machine/Bindings.lean ====
section
/-! DEFINITION. The requests of the binding controller: CLAIM, RELEASE, PIN, UNPIN, FIX, LAMP, CLEAR TABLE, LEAVE and
READ BINDING (chapters 1 and 2). Each takes the request that its port is WORKING on; with no such request there is
nothing to take (log entry 1). -/

namespace Sys2Proof.Machine

/-! ## CLAIM (R19 to R23) -/

/-- The group checks of CLAIM and YIELD ASK for a SELECT set (R19, R42). -/
def State.groupRefusal (s : State) (p : Port) (a : AttrSet) : Option StatusCode :=
  match a.cls.group? with
  | none => none
  | some g =>
    match s.groups[g] with
    | none => some .noGroup
    | some grp => if grp.owner = p then none else some .groupOwner

/-- The ownership check of CLAIM at a position (R19). -/
def State.claimRefusal (s : State) (p : Port) (q : KeyPos) : Option StatusCode :=
  match s.table[q].owner with
  | none => none
  | some h =>
    if h = p then (if s.table[q].hold = .fixed then some .fixed else none) else some .owned

/-- The position is already the requester's member of group `g` (R19). -/
def State.isMember (s : State) (p : Port) (g : GroupId) (q : KeyPos) : Bool :=
  decide (s.table[q].owner = some p) && decide (s.table[q].cls = .select g)

/-- The first position a CLAIM fails at: OWNED, FIXED, then the group room check, `members` being the member count
with the joiners at lower offsets (R19). -/
def State.claimFailure (s : State) (p : Port) (g : Option GroupId) :
    Nat → Nat → List KeyPos → Option (StatusCode × Nat)
  | _, _, [] => none
  | members, k, q :: qs =>
    match s.claimRefusal p q with
    | some st => some (st, k)
    | none =>
      match g with
      | none => s.claimFailure p g members (k + 1) qs
      | some g' =>
        if s.isMember p g' q then s.claimFailure p g members (k + 1) qs
        else if Config.maxMembers < members + 1 then some (.noRoom, k)
        else s.claimFailure p g (members + 1) (k + 1) qs

/-- The member count of the group a set names. -/
def State.membersOf (s : State) (g : Option GroupId) : Nat :=
  match g with
  | none => 0
  | some g => ((s.groups[g]).map SelGroup.count).getD 0

/-- The class a replacement leaves: a TOGGLE binding that stays TOGGLE keeps its latch (R21, R94). -/
def replaceClass : KeyClass → KeyClass → KeyClass
  | .toggle l, .toggle _ => .toggle l
  | _, c => c

/-- The record after a replacement: owner, generation and hold kept (R21). -/
def Binding.replace (b : Binding) (a : AttrSet) : Binding :=
  { b with cls := replaceClass b.cls a.cls, code := a.code, lampMode := a.lampMode, lampValue := a.lampValue }

/-- CLAIM at a position the requester owns: the group changes, the record, the lamp (R16, R21, R22). -/
def State.replacePos (s : State) (a : AttrSet) (q : KeyPos) : State :=
  if s.table[q].cls.group? = a.cls.group? then (s.setBinding q (s.table[q].replace a)).rederive q
  else
    let s1 := s.leaveGroup true q
    ((s1.setBinding q (s1.table[q].replace a)).joinGroup q).rederive q

/-- CLAIM at a position that has passed its checks (R20, R21). -/
def State.claimPos (p : Port) (a : AttrSet) (s : State) (q : KeyPos) : State :=
  match s.table[q].owner with
  | none => s.acquire p a q
  | some _ => s.replacePos a q

/-- CLAIM (R19). The range check comes before the attribute set is looked at (R2, R3). -/
def execClaim (p : Port) (s : State) : Out :=
  .next
    (match s.requestOf p with
     | some (.claim first count raw) =>
       match raw.validate with
       | none => s.rangeRequest p first count (some .badAttr) (fun _ => none) (fun t _ => t)
       | some a =>
         s.rangeRequest p first count (s.groupRefusal p a)
           (s.claimFailure p a.cls.group? (s.membersOf a.cls.group?) 0) (State.claimPos p a)
     | _ => s)

/-! ## RELEASE, PIN, UNPIN (R24 to R29) -/

/-- The check of RELEASE, PIN and UNPIN at a position (R24, R28, R29). -/
def State.ownRefusal (s : State) (p : Port) (q : KeyPos) : Option StatusCode :=
  if s.table[q].owner = some p then (if s.table[q].hold = .fixed then some .fixed else none) else some .notOwner

/-- RELEASE (R24 to R27). -/
def execRelease (p : Port) (s : State) : Out :=
  .next
    (match s.requestOf p with
     | some (.release first count) =>
       s.rangeRequest p first count none (firstFailure (s.ownRefusal p) 0) (fun t q => t.releasePos true q)
     | _ => s)

/-- The hold of `q` becomes `h`. -/
def State.setHold (s : State) (h : Hold) (q : KeyPos) : State :=
  s.setBinding q { s.table[q] with hold := h }

/-- PIN (R28): hold PINNED, and an ask pending on the position ends REFUSED. -/
def execPin (p : Port) (s : State) : Out :=
  .next
    (match s.requestOf p with
     | some (.pin first count) =>
       s.rangeRequest p first count none (firstFailure (s.ownRefusal p) 0)
         (fun t q => (t.setHold .pinned q).endAskOn q .refused)
     | _ => s)

/-- UNPIN (R29): hold OPEN. -/
def execUnpin (p : Port) (s : State) : Out :=
  .next
    (match s.requestOf p with
     | some (.unpin first count) =>
       s.rangeRequest p first count none (firstFailure (s.ownRefusal p) 0) (fun t q => t.setHold .opened q)
     | _ => s)

/-! ## FIX (R30) -/

/-- The check of FIX at a position (R30). -/
def State.fixRefusal (s : State) (q : KeyPos) : Option StatusCode :=
  match s.table[q].owner with
  | none => some .freePosition
  | some _ => if (s.table[q].cls.group?).isSome then some .badAttr else none

/-- FIX, from port 0 (R30): hold FIXED, and an ask pending on the position ends FIXED. -/
def execFix (s : State) : Out :=
  .next
    (match s.requestOf 0 with
     | some (.fix first count) =>
       s.rangeRequest 0 first count none (firstFailure s.fixRefusal 0)
         (fun t q => (t.setHold .fixed q).endAskOn q .fixed)
     | _ => s)

/-! ## LAMP (R32, R127) -/

/-- The check of LAMP at a position (R32). -/
def State.lampRefusal (s : State) (p : Port) (q : KeyPos) : Option StatusCode :=
  if s.table[q].owner = some p then (if s.table[q].lampMode = .host then none else some .badAttr)
  else some .notOwner

/-- LAMP at a position: the value is written and the lamp re-derived (R127). -/
def State.setLampValue (v : Lamp) (s : State) (q : KeyPos) : State :=
  (s.setBinding q { s.table[q] with lampValue := v }).rederive q

/-- LAMP (R32). -/
def execLamp (p : Port) (s : State) : Out :=
  .next
    (match s.requestOf p with
     | some (.lamp first count value) =>
       match lampValueOf value with
       | none => s.rangeRequest p first count (some .badAttr) (fun _ => none) (fun t _ => t)
       | some v => s.rangeRequest p first count none (firstFailure (s.lampRefusal p) 0) (State.setLampValue v)
     | _ => s)

/-! ## CLEAR TABLE (R34, R35) -/

/-- CLEAR TABLE at a position: an owned one is withdrawn, unbound, its ask ended RESET, its lamp re-derived; an unowned
one is passed over (R34, R35). -/
def State.clearPos (s : State) (q : KeyPos) : State :=
  match s.table[q].owner with
  | none => s
  | some _ =>
    let b := s.table[q]
    (((s.withdraw true q).unbind q).resetAskOn q b).rederive q

/-- Every group becomes FREE (R107). -/
def State.freeGroups (s : State) : State :=
  { s with groups := Vector.replicate 32 none }

/-- CLEAR TABLE, from port 0 (R34, R35). -/
def execClearTable (s : State) : Out :=
  .next
    (match s.requestOf 0 with
     | some .clearTable => ((s.overTable State.clearPos).freeGroups).answer 0 .ok []
     | _ => s)

/-! ## LEAVE (R36, R37, R123) -/

/-- LEAVE at a position: a binding of the leaving host that is not FIXED is released silently (R36). -/
def State.leavePos (p : Port) (s : State) (q : KeyPos) : State :=
  if s.table[q].owner = some p ∧ s.table[q].hold ≠ .fixed then s.releasePos false q else s

/-- Each group owned by the leaving host becomes FREE (R37). -/
def State.freeGroupsOf (s : State) (p : Port) : State :=
  { s with
    groups := tabulate 32 (fun g => (s.groups[g]).bind (fun grp => if grp.owner = p then none else some grp)) }

/-- LEAVE (R36, R37): the bindings, the groups, the presence, and the queue when all else is done. -/
def execLeave (p : Port) (s : State) : Out :=
  .next
    (match s.requestOf p with
     | some .leave =>
       ((((s.overTable (State.leavePos p)).freeGroupsOf p).setPresence p .present).emptyQueue p).answer p .ok []
     | _ => s)

/-! ## READ BINDING (R13) -/

/-- READ BINDING (R13, R1). -/
def execReadBinding (p : Port) (s : State) : Out :=
  .next
    (match s.requestOf p with
     | some (.readBinding w) =>
       match position w with
       | none => s.answer p .badPosition []
       | some q => s.answer p .ok s.table[q].bytes
     | _ => s)

end Sys2Proof.Machine
end

