-- ==== Sys2Proof/Machine/Profiles.lean ====
section
/-! DEFINITION. The repeat timer: SET PROFILE, READ PROFILE and the due of a repeat (chapter 5). -/

namespace Sys2Proof.Machine

/-- The values SET PROFILE accepts for a profile (R83, R85). -/
def Profile.ok (f : Profile) : Bool :=
  decide (f.delay ≠ 0) && decide (f.period ≠ 0) && decide (f.step.toNat ≤ 15) && decide (f.floor ≠ 0)
    && decide (f.floor.toNat ≤ f.period.toNat)

/-- SET_PROFILE, from port 0 (R85). -/
def execSetProfile (s : State) : Out :=
  .next
    (match s.requestOf 0 with
     | some (.setProfile profile delay period step floor) =>
       match index 8 profile with
       | none => s.answer 0 .badAttr []
       | some i =>
         if Profile.ok ⟨delay, period, step, floor⟩ then
           { s with profiles := upd s.profiles i ⟨delay, period, step, floor⟩ }.answer 0 .ok []
         else s.answer 0 .badAttr []
     | _ => s)

/-- READ_PROFILE (R86). -/
def execReadProfile (p : Port) (s : State) : Out :=
  .next
    (match s.requestOf p with
     | some (.readProfile profile) =>
       match index 8 profile with
       | none => s.answer p .badAttr []
       | some i => s.answer p .ok s.profiles[i].bytes
     | _ => s)

/-- A stored number of 10 ms units in ms (R83). -/
def tenths (b : Byte) : Nat :=
  Config.repeatUnit * b.toNat

/-- The repeat count after one more repeat; it stays at 65535 (R88). -/
def raiseCount (n : Nat) : Nat :=
  if n < Config.maxCount then n + 1 else n

/-- The period after step 3 of R89 at repeat count `n`: halved every `step` repeats, not below the floor. -/
def halvedPeriod (f : Profile) (n period : Nat) : Nat :=
  if 0 < f.step.toNat ∧ n % f.step.toNat = 0 then max (tenths f.floor) (period / 2) else period

/-- The record after a REPEAT has been offered at the due `d`: the three steps of R89. `first` is the period in force at
this due: the profile's at the first due, the record's own later. -/
def HeldRecord.repeated (r : HeldRecord) (f : Profile) (d : Time) (period : Nat) : HeldRecord :=
  { r with
    repeatCount := raiseCount r.repeatCount
    phase := .repeating (later d period) (halvedPeriod f (raiseCount r.repeatCount) period) }

/-- The repeat due `d` of a record opened to `o` on a REPEATING binding with profile `f`; `period` is the profile's at
the first due and the record's own later (R88, R89). -/
def State.takeRepeat (s : State) (q : KeyPos) (r : HeldRecord) (o : Opened) (f : Profile) (d : Time)
    (period : Nat) : State :=
  (s.offer o.host (s.keyReport .repeated q (countHalf (raiseCount r.repeatCount)) r.resync false)).modifyHeld q
    (fun x => x.repeated f d period)

/-- A record that takes no further due (R88). -/
def HeldRecord.stopped (r : HeldRecord) : HeldRecord :=
  { r with phase := .held }

/-- The due `d` of record `r` at `q`: a REPEAT, or the end of the repeats where the class is no longer REPEATING or the
record is no longer opened (R88). -/
def State.dueAt (s : State) (q : KeyPos) (r : HeldRecord) (d : Time) (period : Profile → Nat) : State :=
  match s.table[q].cls, r.openedTo with
  | .repeating i, some o => s.takeRepeat q r o s.profiles[i] d (period s.profiles[i])
  | _, _ => s.modifyHeld q HeldRecord.stopped

/-- REPEAT_DUE: desk time has reached the next due of the record of `q` (R88, R90). -/
def execRepeatDue (q : KeyPos) (s : State) : Out :=
  .next
    (match s.heldAt q with
     | none => s
     | some r =>
       match r.phase with
       | .held => s
       | .delay d =>
         if reached s.deskTime d Config.longestRepeat then s.dueAt q r d (fun f => tenths f.period) else s
       | .repeating d period =>
         if reached s.deskTime d Config.longestRepeat then s.dueAt q r d (fun _ => period) else s)

end Sys2Proof.Machine
end

