-- ==== Sys2Proof/Machine/Keys.lean ====
section
/-! DEFINITION. The event engine: press and release processing, reconciliation, READ HELD, and the edges a link
engine has handed over (chapter 4, with the latch and the group rule of chapter 6). -/

namespace Sys2Proof.Machine

/-! ## Press processing (R64 to R68) -/

/-- A record as it is made (R64). -/
def newRecord (q : KeyPos) (now : Time) (resync : Bool) : HeldRecord :=
  { pos := q, pressedAt := now, openedTo := none, closingDue := false, phase := .held, repeatCount := 0,
    resync := resync }

/-- The record opened to `h` under generation `g` (R66 to R68). -/
def HeldRecord.opened (r : HeldRecord) (h : Port) (g : Byte) (due : Bool) (ph : Phase) : HeldRecord :=
  { r with openedTo := some ⟨h, g⟩, closingDue := due, phase := ph }

/-- The record of `q` is opened to the binding's owner `h` and the opening notice is offered to it. -/
def State.openRecord (s : State) (q : KeyPos) (h : Port) (due : Bool) (ph : Phase) (k : NoticeKind) (extra : Half)
    (resync : Bool) : State :=
  (s.modifyHeld q (fun r => r.opened h s.table[q].gen due ph)).offer h (s.keyReport k q extra resync false)

/-- A TOGGLE press: the latch turns over and TOGGLED carries its new value (R67, R95). -/
def State.pressToggle (s : State) (q : KeyPos) (h : Port) (l : Bool) (resync : Bool) : State :=
  (s.setBinding q { s.table[q] with cls := .toggle (!l) }).openRecord q h false .held .toggled
    (countHalf (!l).toNat) resync

/-- The group rule for a press of member `q` of group `g` (R68, R102, R103). -/
def State.pressSelect (s : State) (q : KeyPos) (h : Port) (g : GroupId) (resync : Bool) : State :=
  match s.groups[g] with
  | none => s
  | some grp =>
    match grp.selected with
    | none =>
      (s.setGroup g (some { grp with selected := some q })).openRecord q h false .held .selected (countHalf g.1)
        resync
    | some old =>
      if old = q then
        match grp.mode with
        | .strict => s
        | .loose =>
          (s.setGroup g (some { grp with selected := none })).offer h
            (s.keyReport .deselected q (countHalf g.1) resync false)
      else
        let s1 := s.setGroup g (some { grp with selected := some q })
        let s2 := s1.offer h (s1.keyReport .deselected old (countHalf g.1) resync false)
        (s2.openRecord q h false .held .selected (countHalf g.1) resync).rederive old

/-- Press processing for the class of a bound position, its record just made (R66 to R68, R87). -/
def State.pressClass (s : State) (q : KeyPos) (h : Port) (resync : Bool) : State :=
  match s.table[q].cls with
  | .momentary => s.openRecord q h true .held .press 0 resync
  | .pressOnly => s.openRecord q h false .held .press 0 resync
  | .repeating i =>
    s.openRecord q h true (.delay (later s.deskTime (tenths s.profiles[i].delay))) .press 0 resync
  | .toggle l => s.pressToggle q h l resync
  | .select g => s.pressSelect q h g resync

/-- Press processing of `q`; `resync` while reconciliation runs (R64, R65, R76). -/
def State.pressKey (s : State) (resync : Bool) (q : KeyPos) : State :=
  match s.heldAt q with
  | some _ => s
  | none =>
    if s.held.length < Config.maxHeld then
      let s1 := { s with held := s.held ++ [newRecord q s.deskTime resync] }
      (match s.table[q].owner with
       | none => s1
       | some h => s1.pressClass q h resync).rederive q
    else
      match s.table[q].owner with
      | none => s
      | some h => s.offer h (s.keyReport .blocked q 0 resync false)

/-! ## Edges handed over (R63) -/

/-- The session of link `n` is UP. -/
def Session.isUp : Session → Bool
  | .up _ _ _ => true
  | .off | .probing _ | .syncing _ _ _ | .holdoff _ => false

/-- The event engine takes the oldest edge the link of `q` has handed over, where it is the edge named; it is discarded
where its session has since left UP, or was not UP as it was accepted, and where the session is not UP as it is taken
(R63, R149, R151, R158). -/
def State.takeEdge (s : State) (press : Bool) (q : KeyPos) (act : State → State) : State :=
  match s.links[panelOf q].edges with
  | [] => s
  | e :: rest =>
    if e.press = press ∧ e.pos = q then
      let s1 := s.setLink (panelOf q) { s.links[panelOf q] with edges := rest }
      if e.live && s.links[panelOf q].session.isUp then act s1 else s1
    else s

/-- PRESS_EDGE (R64). -/
def execPressEdge (q : KeyPos) (s : State) : Out :=
  .next (s.takeEdge true q (fun t => t.pressKey false q))

/-- RELEASE_EDGE (R71). -/
def execReleaseEdge (q : KeyPos) (s : State) : Out :=
  .next (s.takeEdge false q (fun t => t.releaseKey false false q))

/-! ## Reconciliation and session end (R76 to R78) -/

/-- The positions of panel `n` with a held record, in press order. -/
def State.heldOn (s : State) (n : LinkId) : List KeyPos :=
  (s.held.map HeldRecord.pos).filter (fun q => decide (panelOf q = n))

/-- Stage 1: the records of the panel whose key is up are released with RESYNC, oldest first (R76). -/
def State.reconcileReleases (s : State) (n : LinkId) (keys : BitVec 128) : State :=
  ((s.heldOn n).filter (fun q => !keys.getLsbD (keyOf q))).foldl (fun t q => t.releaseKey true false q) s

/-- Stage 2: the keys below the key count that are down and have no record are pressed with RESYNC, from key 0
upward (R76). -/
def State.reconcilePresses (s : State) (n : LinkId) (keyCount : Nat) (keys : BitVec 128) : State :=
  (((List.finRange 128).filter (fun k => decide (k.1 < keyCount) && keys.getLsbD k.1)).map (posOf n)).foldl
    (fun t q => t.pressKey true q) s

/-- Reconciliation of panel `n` against its key image (R76). -/
def State.reconcile (s : State) (n : LinkId) (keyCount : Nat) (keys : BitVec 128) : State :=
  (s.reconcileReleases n keys).reconcilePresses n keyCount keys

/-- Every record of panel `n` is released with LOST, oldest first (R78). -/
def State.releasePanel (s : State) (n : LinkId) : State :=
  (s.heldOn n).foldl (fun t q => t.releaseKey false true q) s

/-! ## READ HELD (R79) -/

/-- READ_HELD (R79). -/
def execReadHeld (p : Port) (s : State) : Out :=
  .next
    (match s.requestOf p with
     | some .readHeld => s.answer p .ok (heldBytes s.held)
     | _ => s)

end Sys2Proof.Machine
end

