-- ==== Sys2Proof/Machine/Links.lean ====
section
/-! DEFINITION. The link engines and the lamp controller's side of them: session timers, the choice of orders, the
outcomes of exchanges, enabling and disabling, READ PANEL (chapters 8 to 10). -/

namespace Sys2Proof.Machine

/-! ## Session changes -/

/-- The session of link `n` becomes `x`. -/
def State.setSession (s : State) (n : LinkId) (x : Session) : State :=
  s.setLink n { s.links[n] with session := x }

/-- An edge whose session has left UP (R63). -/
def HandedEdge.stale (e : HandedEdge) : HandedEdge :=
  { e with live := false }

/-- The link engine as its session leaves UP for `x`: the edges handed over and not yet taken act no more (R63). -/
def LinkEngine.leaveUp (l : LinkEngine) (x : Session) : LinkEngine :=
  { l with session := x, edges := l.edges.map HandedEdge.stale }

/-- The session of link `n` leaves UP for `x`. -/
def State.leaveUp (s : State) (n : LinkId) (x : Session) : State :=
  s.setLink n (s.links[n].leaveUp x)

/-- PROBING is entered, or the probe timer has run out: the timer is set for 250 ms and an IDENTIFY begun
(R155, R156). -/
def State.probe (s : State) (n : LinkId) : State :=
  (s.setSession n (.probing (later s.deskTime Config.probeTime))).beginOrder n .identify

/-- A link engine as its session ends: sessions lost +1, consecutive failures 0 (R163). -/
def LinkEngine.lostSession (l : LinkEngine) (x : Session) : LinkEngine :=
  { l.leaveUp x with
    lostCount := if l.lostCount < Config.maxLost then l.lostCount + 1 else l.lostCount
    failures := 0 }

/-- A session ends into `x`, HOLDOFF or OFF: held records released with LOST, PANEL_DOWN, the counts, the sent states
(R163, R165, R78). -/
def State.endSession (s : State) (n : LinkId) (x : Session) : State :=
  let s1 := (s.releasePanel n).panelNotice .panelDown n 0
  (s1.setLink n (s1.links[n].lostSession x)).forgetSent n

/-! ## The choice of the next order (R160, R130, R158) -/

/-- In UP with no exchange in flight: a LAMP for the lowest dirty block, unless the last order was a LAMP or no block is
dirty; then the POLL waits for its time (R160, R130). -/
def State.chooseUp (s : State) (n : LinkId) (last : OrderKind) : State :=
  if last = .lamp then s
  else
    match s.lowestDirty n with
    | none => s
    | some b => s.beginOrder n (.lamp b (s.blockStates (panelBlock n b)))

/-- The order that the session's state calls for once an exchange has ended (R149, R158, R160). -/
def State.nextOrder (s : State) (n : LinkId) : State :=
  match s.links[n].session with
  | .syncing _ _ _ => s.beginOrder n .image
  | .up _ last _ => s.chooseUp n last
  | .off => s
  | .probing _ => s
  | .holdoff _ => s

/-! ## Outcomes of exchanges (R144, R146, R147) -/

/-- Whether a reply is good as a reply to an order: a code the order expects, and an IDENT with a key count of 1 to
128 (R140, R142, R144). AGAIN is always a failed exchange. -/
def fits : LinkOrder → Reply → Bool
  | .identify, .ident _ c => decide (1 ≤ c.toNat) && decide (c.toNat ≤ 128)
  | .image, .image _ => true
  | .poll _, .nothing => true
  | .poll _, .edge _ _ _ => true
  | .poll _, .lost => true
  | .lamp _ _, .accept => true
  | _, _ => false

/-- The failed-exchange count rises by 1 and stays at 65535 (R148). -/
def raiseFailed (n : Nat) : Nat :=
  if n < Config.maxCount then n + 1 else n

/-- A failed exchange of order `o` in a session: the third consecutive failure ends the session, an earlier one is
followed by the retry, or by the IMAGE order where the session has passed to SYNCING (R146, R149, R158). -/
def State.failInSession (s : State) (n : LinkId) (o : LinkOrder) : State :=
  if Config.maxFailures ≤ s.links[n].failures + 1 then
    s.endSession n (.holdoff (later s.deskTime Config.holdoffTime))
  else (s.setLink n { s.links[n] with failures := s.links[n].failures + 1 }).beginOrder n o

/-- The outcome of an exchange that failed, whatever its kind (R146, R147). -/
def State.failExchange (s : State) (n : LinkId) : State :=
  match s.links[n].inFlight with
  | none => s
  | some x =>
    let l := s.links[n]
    let s1 := s.setLink n { l.ended with failedCount := raiseFailed l.failedCount }
    match l.session with
    | .syncing _ _ _ => s1.failInSession n .image
    | .up _ _ _ => s1.failInSession n x.order
    | .off => s1
    | .probing _ => s1
    | .holdoff _ => s1

/-- An exchange in flight ends with a good reply: the consecutive failures become 0 (R146). -/
def State.goodExchange (s : State) (n : LinkId) : State :=
  s.setLink n { s.links[n].ended with failures := 0 }

/-- The session with its last order (R154). -/
def Session.withLast (x : Session) (k : OrderKind) : Session :=
  match x with
  | .syncing c i _ => .syncing c i k
  | .up i _ t => .up i k t
  | .off => .off
  | .probing t => .probing t
  | .holdoff t => .holdoff t

/-- The order `k` is the last whose exchange ended with a good reply (R154). -/
def State.noteLast (s : State) (n : LinkId) (k : OrderKind) : State :=
  s.setSession n (s.links[n].session.withLast k)

/-- A good IDENT: the identity is recorded, SYNCING with cause NEW, and the IMAGE order begun (R157, R158). -/
def State.takeIdent (s : State) (n : LinkId) (panelType keyCount : Byte) : State :=
  match s.links[n].session with
  | .probing _ =>
    (s.setSession n (.syncing .new ⟨panelType, keyCount.toNat⟩ .identify)).beginOrder n .image
  | .off => s
  | .syncing _ _ _ => s
  | .up _ _ _ => s
  | .holdoff _ => s

/-- The panel notice that ends a synchronisation (R159). -/
def State.syncNotice (s : State) (n : LinkId) (c : SyncCause) (i : Identity) : State :=
  match c with
  | .new => s.panelNotice .panelUp n (extraPair i.panelType.toNat i.keyCount)
  | .lost => s.panelNotice .panelResync n 0
  | .reset => s.panelNotice .panelResync n 0

/-- A good IMAGE reply in SYNCING: L becomes 0, reconciliation, the panel notice, UP, every sent state UNKNOWN, and the
first order of the session chosen (R152, R159). -/
def State.takeImage (s : State) (n : LinkId) (keys : BitVec 128) : State :=
  match s.links[n].session with
  | .syncing c i _ =>
    let s1 := s.setLink n { s.links[n] with bitL := false }
    let s2 := (s1.reconcile n i.keyCount keys).syncNotice n c i
    ((s2.setSession n (.up i .image none)).forgetSent n).nextOrder n
  | .off => s
  | .probing _ => s
  | .up _ _ _ => s
  | .holdoff _ => s

/-- The key count of the panel's identity, 0 without one. -/
def Session.keyCount (x : Session) : Nat :=
  (x.identity.map Identity.keyCount).getD 0

/-- The edge-bit rule: an edge whose S differs from L is accepted, L becomes S, and an edge of an existing key is handed
to the event engine, live where the session is UP (R63, R149); a duplicate is discarded (R151). -/
def LinkEngine.takeEdge (l : LinkEngine) (n : LinkId) (bitS press : Bool) (key : BitVec 7) : LinkEngine :=
  if bitS = l.bitL then l
  else
    { l with
      bitL := bitS
      edges :=
        if key.toNat < l.session.keyCount then l.edges ++ [⟨press, posOf n ⟨key.toNat, key.isLt⟩, l.session.isUp⟩]
        else l.edges }

/-- A good LOST reply: from UP the session passes to SYNCING with cause LOST and the sent states become UNKNOWN; in
SYNCING nothing more changes; the IMAGE order follows (R162). -/
def State.takeLost (s : State) (n : LinkId) : State :=
  match s.links[n].session with
  | .up i _ _ => ((s.leaveUp n (.syncing .lost i .poll)).forgetSent n).nextOrder n
  | .syncing _ _ _ => s.nextOrder n
  | .off => s
  | .probing _ => s
  | .holdoff _ => s

/-- A good ACCEPT: the acceptance of the order's block is handed to the lamp controller (R132). -/
def State.handAcceptance (s : State) (n : LinkId) (o : LinkOrder) : State :=
  match o with
  | .lamp b states =>
    s.setLink n { s.links[n] with acceptances := s.links[n].acceptances ++ [⟨b, states⟩] }
  | .identify => s
  | .image => s
  | .poll _ => s

/-- A good reply, the exchange `x` having ended (R146, R151). -/
def State.goodReply (s : State) (n : LinkId) (x : Exchange) (r : Reply) : State :=
  match r with
  | .ident t c => s.takeIdent n t c
  | .image keys => s.takeImage n keys
  | .nothing => (s.noteLast n .poll).nextOrder n
  | .edge bitS press key =>
    ((s.noteLast n .poll).setLink n (((s.noteLast n .poll).links[n]).takeEdge n bitS press key)).nextOrder n
  | .lost => s.takeLost n
  | .accept => ((s.noteLast n .lamp).handAcceptance n x.order).nextOrder n
  | .again => s

/-- The exchange in flight on link `n` ends with the whole reply `r`, good or judged a failed exchange; a link with no
exchange in flight receives nothing (R144, R146). -/
def State.endExchange (s : State) (n : LinkId) (r : Reply) : State :=
  match s.links[n].inFlight with
  | none => s
  | some x => if fits x.order r then (s.goodExchange n).goodReply n x r else s.failExchange n

/-- IDENT (R157). -/
def execIdent (n : LinkId) (panelType keyCount : Byte) (s : State) : Out :=
  .next (s.endExchange n (.ident panelType keyCount))

/-- IMAGE_REPLY (R159). -/
def execImageReply (n : LinkId) (keys : BitVec 128) (s : State) : Out :=
  .next (s.endExchange n (.image keys))

/-- EDGE (R151). -/
def execEdge (n : LinkId) (bitS press : Bool) (key : BitVec 7) (s : State) : Out :=
  .next (s.endExchange n (.edge bitS press key))

/-- NOTHING (R146). -/
def execNothing (n : LinkId) (s : State) : Out :=
  .next (s.endExchange n .nothing)

/-- LOST (R162). -/
def execLost (n : LinkId) (s : State) : Out :=
  .next (s.endExchange n .lost)

/-- ACCEPT (R146). -/
def execAccept (n : LinkId) (s : State) : Out :=
  .next (s.endExchange n .accept)

/-- AGAIN (R144): always a failed exchange. -/
def execAgain (n : LinkId) (s : State) : Out :=
  .next (s.endExchange n .again)

/-- EXCHANGE_FAILED (R146): the kind of the failure makes no difference to what follows. -/
def execExchangeFailed (n : LinkId) (_why : FailKind) (s : State) : Out :=
  .next (s.failExchange n)

/-! ## Timers and POLL (R156, R160, R161, R164) -/

/-- PROBE_TIMER (R156). The IDENTIFY before has ended: the engine begins an exchange only when none is in flight. -/
def execProbeTimer (n : LinkId) (s : State) : Out :=
  .next
    (match s.links[n].session with
     | .probing t =>
       if s.links[n].inFlight.isNone && reached s.deskTime t Config.probeTime then s.probe n else s
     | .off => s
     | .syncing _ _ _ => s
     | .up _ _ _ => s
     | .holdoff _ => s)

/-- HOLDOFF_TIMER (R164). -/
def execHoldoffTimer (n : LinkId) (s : State) : Out :=
  .next
    (match s.links[n].session with
     | .holdoff t => if reached s.deskTime t Config.holdoffTime then s.probe n else s
     | .off => s
     | .probing _ => s
     | .syncing _ _ _ => s
     | .up _ _ _ => s)

/-- The time of the next POLL has come: no POLL start yet, or the poll interval has passed since it (R160). -/
def State.pollDue (s : State) (lastPoll : Option Time) : Bool :=
  match lastPoll with
  | none => true
  | some t => passed s.deskTime t s.pollInterval.toNat

/-- POLL (R160, R161): in UP with no exchange in flight, a POLL carrying A = L is begun and its start recorded. -/
def execPoll (n : LinkId) (s : State) : Out :=
  .next
    (match s.links[n].session with
     | .up i last lastPoll =>
       if s.links[n].inFlight.isNone && s.pollDue lastPoll then
         (s.setSession n (.up i last (some s.deskTime))).beginOrder n (.poll s.links[n].bitL)
       else s
     | .off => s
     | .probing _ => s
     | .syncing _ _ _ => s
     | .holdoff _ => s)

/-! ## Enabling and disabling (R155, R165, R166) -/

/-- Every link handed a change by SET LINKS has taken it (R166). -/
def State.allTaken (s : State) : Bool :=
  (List.finRange 8).all (fun n => s.links[n].handed.isNone)

/-- Port 0 is WORKING on SET LINKS. -/
def State.workingOnSetLinks (s : State) : Bool :=
  match s.requestOf 0 with
  | some (.setLinks _ _ _) => true
  | _ => false

/-- SET LINKS is answered OK when every link handed a change has taken it (R166, R183). -/
def State.settleLinks (s : State) : State :=
  if s.allTaken && s.workingOnSetLinks then s.answer 0 .ok [] else s

/-- LINK_ENABLE: a link in OFF becomes PROBING; in another state nothing changes (R155, R165). -/
def execLinkEnable (n : LinkId) (s : State) : Out :=
  .next
    (if s.links[n].handed = some true then
      let s1 := s.setLink n { s.links[n] with handed := none }
      (if s.links[n].session = .off then s1.probe n else s1).settleLinks
     else s)

/-- The engine's own part of a disabling: the exchange is abandoned, LCKn held low, the failures 0 (R149, R165). -/
def LinkEngine.disabled (l : LinkEngine) : LinkEngine :=
  { l with handed := none, inFlight := none, lck := .low, failures := 0 }

/-- The disabling of a link by its state (R165). -/
def State.disableSession (s : State) (n : LinkId) : State :=
  match s.links[n].session with
  | .off => s
  | .probing _ => s.setSession n .off
  | .holdoff _ => s.setSession n .off
  | .syncing _ _ _ => s.endSession n .off
  | .up _ _ _ => s.endSession n .off

/-- LINK_DISABLE (R165). -/
def execLinkDisable (n : LinkId) (s : State) : Out :=
  .next
    (if s.links[n].handed = some false then
      ((s.setLink n s.links[n].disabled).disableSession n).settleLinks
     else s)

/-! ## The lamp controller (R132) -/

/-- The acceptance is written into the sent states and the block's dirty flag recomputed (R132). -/
def State.writeSent (s : State) (n : LinkId) (a : Acceptance) : State :=
  let b := panelBlock n a.block
  let sent := (List.finRange 8).foldl (fun v i => upd v (lampPos b i) (some a.states[i])) s.sent
  { s with sent := sent, dirty := upd s.dirty b (dirtyFlag s.derived sent b) }

/-- LAMP_ACCEPTANCE: the lamp controller takes the oldest acceptance the link has handed over; it is discarded where
the session is no longer UP (R132). -/
def execLampAcceptance (n : LinkId) (s : State) : Out :=
  .next
    (match s.links[n].acceptances with
     | [] => s
     | a :: rest =>
       let s1 := s.setLink n { s.links[n] with acceptances := rest }
       if s.links[n].session.isUp then s1.writeSent n a else s1)

/-! ## READ PANEL (R168) -/

/-- READ_PANEL (R168). -/
def execReadPanel (p : Port) (s : State) : Out :=
  .next
    (match s.requestOf p with
     | some (.readPanel panel) =>
       match index 8 panel with
       | none => s.answer p .badAttr []
       | some n => s.answer p .ok (panelBytes (s.enabled n) s.links[n])
     | _ => s)

end Sys2Proof.Machine
end

