-- ==== Sys2Proof/Machine/Desk.lean ====
section
/-! DEFINITION. The desk time base and the desk as a whole: POWER_ON, DESK_TICK, SET PORT, SET LINKS, READ DESK, DESK RESET
(chapter 11, with R57 and R122 for SET PORT). -/

namespace Sys2Proof.Machine

/-! ## Power-on and the RESET pin (R185) -/

/-- The part held in power-on reset: it takes no transaction, LCKn is low and no exchange runs, so that LDAn is
released, the NOTE lines are released, and every record has its power-on value. The chip select pins keep their
levels; commands that wait are not the part's and stay (log entry 2). -/
def State.holdReset (s : State) : State :=
  { State.reset with
    resetLow := true
    links := Vector.replicate 8 LinkEngine.inReset
    ports := tabulate 4 (fun p => { PortUnit.initial with csLow := s.ports[p].csLow })
    pending := s.pending }

/-- The part leaves power-on reset: every record has its power-on value, and each link the mask enables becomes PROBING
with its first IDENTIFY begun (R155, R169, R185). A chip select that is low begins no transaction. -/
def State.leaveReset (s : State) : State :=
  (List.finRange 8).foldl (fun t n => if t.enabled n then t.probe n else t) { s.holdReset with resetLow := false }

/-- POWER_ON (R185): the next change of the RESET level, by which the hold begins, or, in the hold, ends (log entry 2). -/
def execPowerOn (s : State) : Out :=
  .next (if s.resetLow then s.leaveReset else s.holdReset)

/-! ## Desk time (R182) -/

/-- DESK_TICK: desk time rises by 1, 65535 followed by 0 (R182); it counts from 0 as the part leaves reset (R185). -/
def execDeskTick (s : State) : Out :=
  .next (if s.resetLow then s else { s with deskTime := s.deskTime + 1 })

/-! ## SET PORT (R122, R57, R60) -/

/-- SET PORT with good operands: both settings written, NOTEn driven at once; a lapse time of 0 makes the host
PRESENT (R122, R60). The timer counts the new lapse time from the end of the request's transaction (R57). -/
def State.writePort (s : State) (p : Port) (m : LineMode) (lapse : Byte) : State :=
  let s1 := (s.setPort p { s.ports[p] with lineMode := m, lapseTime := lapse }).driveNote p
  if lapse = 0 then s1.setPresence p .present else s1

/-- SET_PORT (R122). -/
def execSetPort (p : Port) (s : State) : Out :=
  .next
    (match s.requestOf p with
     | some (.setPort mode lapse) =>
       match lineModeOf mode with
       | none => s.answer p .badAttr []
       | some m => if 60 < lapse.toNat then s.answer p .badAttr [] else (s.writePort p m lapse).answer p .ok []
     | _ => s)

/-! ## SET LINKS (R183, R166) -/

/-- The change a link is handed: its new place in the mask where that differs (R166). -/
def handedChange (old new : Byte) (n : LinkId) : Option Bool :=
  if old.getLsbD n.1 = new.getLsbD n.1 then none else some (new.getLsbD n.1)

/-- The three settings are written and each changed link is handed its enabling or disabling (R183). -/
def State.writeLinks (s : State) (mask pollInterval yieldWait : Byte) : State :=
  { s with
    mask := mask
    pollInterval := pollInterval
    yieldWait := yieldWait
    links := tabulate 8 (fun n => { s.links[n] with handed := handedChange s.mask mask n }) }

/-- The operands SET LINKS accepts: a poll interval of 2 to 20 and a yield wait above 0 (R183). -/
def linksOk (pollInterval yieldWait : Byte) : Bool :=
  decide (2 ≤ pollInterval.toNat) && decide (pollInterval.toNat ≤ 20) && decide (yieldWait ≠ 0)

/-- SET_LINKS, from port 0 (R183). A request whose changes are still with the links has been taken. -/
def execSetLinks (s : State) : Out :=
  .next
    (match s.requestOf 0 with
     | some (.setLinks mask pollInterval yieldWait) =>
       if s.allTaken then
         if linksOk pollInterval yieldWait then (s.writeLinks mask pollInterval yieldWait).settleLinks
         else s.answer 0 .badAttr []
       else s
     | _ => s)

/-! ## READ DESK (R184) -/

/-- READ_DESK (R184). -/
def execReadDesk (p : Port) (s : State) : Out :=
  .next
    (match s.requestOf p with
     | some .readDesk => s.answer p .ok s.deskBytes
     | _ => s)

/-! ## DESK RESET (R186) -/

/-- DESK RESET at a position: an owned binding that is not FIXED is unbound and its ask ended RESET; the latch of a
FIXED TOGGLE binding becomes OFF (R17, R53). -/
def State.resetPos (s : State) (q : KeyPos) : State :=
  let b := s.table[q]
  match b.owner with
  | none => s
  | some _ =>
    if b.hold = .fixed then
      match b.cls with
      | .toggle _ => s.setBinding q { b with cls := .toggle false }
      | .momentary => s
      | .pressOnly => s
      | .repeating _ => s
      | .select _ => s
    else (s.unbind q).resetAskOn q b

/-- A port at DESK RESET: its lapse timer restarts where the lapse time is not 0; it stands while chip select is low
(R57, R61). -/
def PortUnit.deskReset (u : PortUnit) (now : Time) : PortUnit :=
  { u with
    lapseStart := if u.lapseTime = 0 then u.lapseStart else if u.csLow then none else some now }

/-- Presence, lapse timers, held-key set, profiles and groups take their part of the reset (R61, R81, R93, R107). -/
def State.resetRecords (s : State) : State :=
  { s with
    held := []
    profiles := defaultProfiles
    groups := Vector.replicate 32 none
    presence := Vector.replicate 4 .present
    ports := tabulate 4 (fun p => s.ports[p].deskReset s.deskTime) }

/-- The lamp controller's part: derived states follow the bindings and the emptied set, every sent state is UNKNOWN and
every block dirty (R136). -/
def State.resetLamps (s : State) : State :=
  { s with
    derived := tabulate 1024 s.lampFor
    sent := Vector.replicate 1024 none
    dirty := Vector.replicate 128 true }

/-- A session at DESK RESET: UP becomes SYNCING with cause RESET, so that edges not yet taken act no more, and the IMAGE
order is begun at once unless an exchange is still in flight; every other state is kept (R63, R158, R170). -/
def State.resetSession (s : State) (n : LinkId) : State :=
  match s.links[n].session with
  | .up i last _ =>
    let s1 := s.leaveUp n (.syncing .reset i last)
    if s.links[n].inFlight.isNone then s1.beginOrder n .image else s1
  | .off => s
  | .probing _ => s
  | .syncing _ _ _ => s
  | .holdoff _ => s

/-- Every part of the reset in one event, the queues emptied last (R186). -/
def State.deskReset (s : State) : State :=
  let s1 := ((s.overTable State.resetPos).resetRecords).resetLamps
  let s2 := (List.finRange 8).foldl State.resetSession s1
  (List.finRange 4).foldl State.emptyQueue s2

/-- DESK_RESET, from port 0 (R186). -/
def execDeskReset (s : State) : Out :=
  .next
    (match s.requestOf 0 with
     | some .deskReset => s.deskReset.answer 0 .ok []
     | _ => s)

end Sys2Proof.Machine
end

