-- ==== Sys2Proof/Machine/Groups.lean ====
section
/-! DEFINITION. The group requests: OPEN GROUP, CLOSE GROUP, CLEAR SELECTION and READ GROUP (chapter 6). -/

namespace Sys2Proof.Machine

/-- OPEN GROUP as the group unit takes it (R98). -/
def State.takeOpenGroup (s : State) (p : Port) (group mode : Byte) : State :=
  match index 32 group, groupModeOf mode with
  | some g, some m =>
    match s.groups[g] with
    | none => (s.setGroup g (some { owner := p, mode := m, selected := none, count := 0 })).answer p .ok []
    | some grp =>
      if grp.owner = p then (s.setGroup g (some { grp with mode := m })).answer p .ok []
      else s.answer p .groupOwner []
  | _, _ => s.answer p .badAttr []

/-- OPEN_GROUP (R98). -/
def execOpenGroup (p : Port) (s : State) : Out :=
  .next
    (match s.requestOf p with
     | some (.openGroup group mode) => s.takeOpenGroup p group mode
     | _ => s)

/-- Checks 1 to 3 of R99, then `act` on the requester's OPEN group. -/
def State.withOwnGroup (s : State) (p : Port) (group : Byte) (act : GroupId → SelGroup → State) : State :=
  match index 32 group with
  | none => s.answer p .badAttr []
  | some g =>
    match s.groups[g] with
    | none => s.answer p .noGroup []
    | some grp => if grp.owner = p then act g grp else s.answer p .groupOwner []

/-- CLOSE_GROUP (R99). -/
def execCloseGroup (p : Port) (s : State) : Out :=
  .next
    (match s.requestOf p with
     | some (.closeGroup group) =>
       s.withOwnGroup p group (fun g grp =>
         if 0 < grp.count then s.answer p .groupBusy [] else (s.setGroup g none).answer p .ok [])
     | _ => s)

/-- The selection of group `g` becomes none and the lamp of the position that was selected is re-derived (R100). -/
def State.deselect (s : State) (g : GroupId) (grp : SelGroup) : State :=
  match grp.selected with
  | none => s
  | some q => (s.setGroup g (some { grp with selected := none })).rederive q

/-- CLEAR_SELECTION (R100). -/
def execClearSelection (p : Port) (s : State) : Out :=
  .next
    (match s.requestOf p with
     | some (.clearSelection group) =>
       s.withOwnGroup p group (fun g grp => (s.deselect g grp).answer p .ok [])
     | _ => s)

/-- READ_GROUP (R101). -/
def execReadGroup (p : Port) (s : State) : Out :=
  .next
    (match s.requestOf p with
     | some (.readGroup group) =>
       match index 32 group with
       | none => s.answer p .badAttr []
       | some g => s.answer p .ok (groupBytes s.groups[g])
     | _ => s)

end Sys2Proof.Machine
end

