-- ==== Sys2Proof/WellFormed.lean ====
section
/-! DEFINITION. Which terms of Instr spell the row they stand for. Ports, links, positions and ask ids are
bounded by their types; two rows carry a byte that their own rule restricts. -/

namespace Sys2Proof

/-- The kind bytes that name a transaction other than STATUS (R189). -/
def otherKindByte (b : Byte) : Bool :=
  kindOf b != .status

/-- A STATUS command carries a kind byte of no other transaction (R172); a good IDENT carries a key count of
1 to 128 (R142). Outside these an IDENT is judged a wrong reply and a STATUS is not taken. -/
def Instr.wellFormed : Instr → Bool
  | .status _ b => !otherKindByte b
  | .ident _ _ c => 1 ≤ c.toNat && c.toNat ≤ 128
  | _ => true

end Sys2Proof
end

