-- ==== Sys2Proof/Machine/Transactions.lean ====
section
/-! DEFINITION. The host ports: CHIP_SELECT_FALL to SUBMIT, and HOST_LAPSE (chapters 11, 3 and 7).
A command whose event cannot occur in the state it meets changes nothing (log entry 1). -/

namespace Sys2Proof.Machine

/-! ## Chip select (R171, R57, R60) -/

/-- The transaction that begins: status byte and notice count as they stand (R173, R116). -/
def State.newTransaction (s : State) (p : Port) : Transaction :=
  { statusByte := statusByteOf p s.ports[p] s.queues[p], count := s.queues[p].length,
    left := s.queues[p].length, reading := .unread, out := [] }

/-- Chip select falls: a transaction begins, the host becomes PRESENT, the lapse timer stands (R60, R57). While the
part is held in power-on reset no transaction begins (R185). -/
def execChipSelectFall (p : Port) (s : State) : Out :=
  .next
    (if s.ports[p].csLow then s
     else if s.resetLow then s.setPort p { s.ports[p] with csLow := true }
     else
      (s.setPort p { s.ports[p] with csLow := true, lapseStart := none, txn := some (s.newTransaction p) }).setPresence
        p .present)

/-- The bytes a transaction has clocked out whole: none before its kind byte is complete, then the status byte and what
followed it (R171, R172). -/
def Transaction.clockedOut (t : Transaction) : List Byte :=
  match t.reading with
  | .unread => []
  | .status => t.statusByte :: t.out
  | .cancel => t.statusByte :: t.out
  | .fetch _ _ => t.statusByte :: t.out
  | .notices _ _ => t.statusByte :: t.out

/-- The port as chip select rises: any transaction ends and the lapse timer restarts from the full lapse time; a rise
that ends no transaction restarts nothing (R57, R185). -/
def PortUnit.risen (u : PortUnit) (now : Time) : PortUnit :=
  { u with
    csLow := false, txn := none
    lapseStart := if u.txn.isSome then some now else u.lapseStart
    lastOut := (u.txn.map Transaction.clockedOut).getD u.lastOut }

/-- Chip select rises at the end of a transaction other than SUBMIT (R57, R171). -/
def execChipSelectRise (p : Port) (s : State) : Out :=
  .next (s.setPort p (s.ports[p].risen s.deskTime))

/-! ## Kind bytes and the bytes clocked out (R172, R174) -/

/-- A kind byte completes: the transaction reads as its kind does, and a status byte that showed LAPSED, now clocked
out whole, clears the lapse flag (R172, R174). -/
def PortUnit.takeKind (u : PortUnit) (t : Transaction) (r : Reading) : PortUnit :=
  { u with txn := some { t with reading := r }, lapseFlag := u.lapseFlag && !showsLapsed t.statusByte }

/-- One more byte is clocked out of a transaction, which then reads as `r`. -/
def Transaction.clock (t : Transaction) (r : Reading) (b : Byte) : Transaction :=
  { t with reading := r, out := t.out ++ [b] }

/-- Port `p` with one more byte clocked out. -/
def State.clockByte (s : State) (p : Port) (t : Transaction) (r : Reading) (b : Byte) : State :=
  s.setPort p { s.ports[p] with txn := some (t.clock r b) }

/-- STATUS, or a kind byte that is none of the five: the status byte is returned and later bytes read 0x00 (R172). -/
def execStatus (p : Port) (kindByte : Byte) (s : State) : Out :=
  .next
    (match s.ports[p].txn with
     | none => s
     | some t =>
       match t.reading with
       | .unread => if otherKindByte kindByte then s else s.setPort p (s.ports[p].takeKind t .status)
       | .status => s.clockByte p t .status 0
       | .cancel => s
       | .fetch _ _ => s
       | .notices _ _ => s)

/-- What a FETCH clocks out after the status byte, and whether it is an answer to be consumed (R179). -/
def PortState.fetched : PortState → List Byte × Bool
  | .idle => (Answer.bytes ⟨.none, 0, []⟩, false)
  | .working r => (Answer.bytes ⟨.notReady, r.code, []⟩, false)
  | .answered a => (a.bytes, true)

/-- FETCH: at its kind byte the bytes it returns are those of the port state as it stands (R179); after that one byte
a command, 0x00 past the end. The last byte of an answer is ANSWER_CONSUMED's. -/
def execFetch (p : Port) (s : State) : Out :=
  .next
    (match s.ports[p].txn with
     | none => s
     | some t =>
       match t.reading with
       | .unread =>
         s.setPort p
           (s.ports[p].takeKind t (.fetch s.ports[p].state.fetched.1 s.ports[p].state.fetched.2))
       | .fetch [] live => s.clockByte p t (.fetch [] live) 0
       | .fetch [b] live => if live then s else s.clockByte p t (.fetch [] live) b
       | .fetch (b :: c :: rest) live => s.clockByte p t (.fetch (c :: rest) live) b
       | .status => s
       | .cancel => s
       | .notices _ _ => s)

/-- ANSWER_CONSUMED: the rest of the answer, its last byte included, is clocked out; the answer buffer is emptied and
the port goes IDLE (R180). -/
def execAnswerConsumed (p : Port) (s : State) : Out :=
  .next
    (match s.ports[p].txn with
     | none => s
     | some t =>
       match t.reading with
       | .fetch rest true =>
         s.setPort p
           { s.ports[p] with
             state := .idle, txn := some { t with reading := .fetch [] false, out := t.out ++ rest } }
       | .fetch _ false => s
       | .unread => s
       | .status => s
       | .cancel => s
       | .notices _ _ => s)

/-- The next byte of a NOTICES transaction: the count, a byte of the head entry as it now stands, or 0x00 once the
counted entries are done; `none` where the next byte is the tenth of the head entry (R116 to R118). -/
def nextNoticeByte (t : Transaction) (q : List Notice) (counted : Bool) (sent : Nat) : Option (Reading × Byte) :=
  if !counted then some (.notices true sent, byte t.count)
  else
    match t.left, q with
    | 0, _ => some (.notices true sent, 0)
    | _ + 1, [] => some (.notices true sent, 0)
    | _ + 1, n :: _ => if sent < 9 then some (.notices true (sent + 1), (n.bytes[sent]?).getD 0) else none

/-- NOTICES: at its kind byte the read-out begins with the count fixed as chip select fell (R116); after that one byte
a command. The tenth byte of an entry is NOTICE_REMOVAL's. -/
def execNotices (p : Port) (s : State) : Out :=
  .next
    (match s.ports[p].txn with
     | none => s
     | some t =>
       match t.reading with
       | .unread => s.setPort p (s.ports[p].takeKind t (.notices false 0))
       | .notices counted sent =>
         match nextNoticeByte t s.queues[p] counted sent with
         | some (r, b) => s.clockByte p t r b
         | none => s
       | .status => s
       | .cancel => s
       | .fetch _ _ => s)

/-- NOTICE_REMOVAL: the rest of the head entry, as it stands, is clocked out up to its tenth byte; the entry leaves the
queue and NOTEn follows (R117, R118, R121). -/
def execNoticeRemoval (p : Port) (s : State) : Out :=
  .next
    (match s.ports[p].txn with
     | none => s
     | some t =>
       match t.reading with
       | .notices counted sent =>
         match t.left, s.queues[p] with
         | 0, _ => s
         | _ + 1, [] => s
         | left + 1, n :: q =>
           let out := t.out ++ (if counted then [] else [byte t.count]) ++ n.bytes.drop sent
           ({ s with queues := upd s.queues p q }.setPort p
             { s.ports[p] with
               txn := some { t with left := left, reading := .notices true 0, out := out } }).driveNote p
       | .unread => s
       | .status => s
       | .cancel => s
       | .fetch _ _ => s)

/-- The port is WORKING on a YIELD ASK. -/
def State.workingOnAsk (s : State) (p : Port) : Bool :=
  match s.requestOf p with
  | some (.yieldAsk _ _) => true
  | _ => false

/-- The effect of a CANCEL: the port's own pending ask ends CANCELLED; in any other case nothing (R51, R181). -/
def State.cancelAsk (s : State) (p : Port) : State :=
  if s.workingOnAsk p then
    match s.askOf p with
    | none => s
    | some (i, a) => s.closeAsk i a .cancelled .cancelled s.table[a.pos]
  else s

/-- CANCEL, when its kind byte is complete (R181); later bytes read 0x00 (R172). -/
def execCancel (p : Port) (s : State) : Out :=
  .next
    (match s.ports[p].txn with
     | none => s
     | some t =>
       match t.reading with
       | .unread => (s.setPort p (s.ports[p].takeKind t .cancel)).cancelAsk p
       | .cancel => s.clockByte p t .cancel 0
       | .status => s
       | .fetch _ _ => s
       | .notices _ _ => s)

/-! ## SUBMIT (R176, R177) -/

/-- A request answered by the port itself (R176 checks 1 to 4). -/
def portAnswer (st : StatusCode) (code : Byte) : PortState :=
  .answered ⟨st, code, []⟩

/-- The port state after a SUBMIT taken in IDLE: the checks of R176 in their order. -/
def takeSubmit (p : Port) (bytes : List Byte) : PortState :=
  match bytes with
  | [] => portAnswer .short 0
  | code :: ops =>
    match operandLength code with
    | none => portAnswer .unknown code
    | some n =>
      if ops.length < n then portAnswer .short code
      else
        match readRequest code ops with
        | none => portAnswer .unknown code
        | some r => if r.supervisorOnly && decide (p ≠ 0) then portAnswer .supervisor code else .working r

/-- The port after a SUBMIT: taken in IDLE, which clears REFUSED; discarded in WORKING and ANSWERED, which sets it
(R176, R177). -/
def PortUnit.submitted (u : PortUnit) (p : Port) (bytes : List Byte) : PortUnit :=
  match u.state with
  | .idle => { u with state := takeSubmit p bytes, refused := false }
  | .working _ => { u with refused := true }
  | .answered _ => { u with refused := true }

/-- What a SUBMIT clocks out: the status byte, then 0x00 for each byte clocked in after the kind byte (R172). -/
def Transaction.submitOut (t : Transaction) (bytes : List Byte) : List Byte :=
  t.statusByte :: bytes.map (fun _ => 0)

/-- SUBMIT: chip select rises at the end of a SUBMIT transaction with `bytes` complete after the kind byte. The kind
byte completed the status byte (R174), 0x00 was clocked out for each byte after it (R172), the rise restarts the lapse
timer (R57), and the request is taken or discarded (R176, R177). -/
def execSubmit (p : Port) (bytes : List Byte) (s : State) : Out :=
  .next
    (match s.ports[p].txn with
     | none => s
     | some t =>
       match t.reading with
       | .unread =>
         s.setPort p
           { ((s.ports[p].takeKind t .unread).risen s.deskTime).submitted p bytes with lastOut := t.submitOut bytes }
       | .status => s
       | .cancel => s
       | .fetch _ _ => s
       | .notices _ _ => s)

/-! ## Host lapse (R58) -/

/-- Port `p`'s lapse timer has run out (R57). -/
def State.lapseDue (s : State) (p : Port) : Bool :=
  match s.ports[p].lapseStart with
  | none => false
  | some t =>
    decide (s.ports[p].lapseTime.toNat ≠ 0)
      && passed s.deskTime t (Config.lapseUnit * s.ports[p].lapseTime.toNat)

/-- The ask `i` is granted if its holder is host `p` (R58). -/
def State.grantIfHeldBy (s : State) (p : Port) (i : AskId) : State :=
  match s.asks[i] with
  | none => s
  | some a => if a.holder = p then s.grant (some i) a.asker a.holder a.set a.pos else s

/-- HOST_LAPSE: the host becomes LAPSED, its lapse flag is set, and every pending ask it holds is granted in ascending
ask id (R58, R174). -/
def execHostLapse (p : Port) (s : State) : Out :=
  .next
    (if s.lapseDue p then
      (List.finRange 4).foldl (fun t i => t.grantIfHeldBy p i)
        ((s.setPort p { s.ports[p] with lapseStart := none, lapseFlag := true }).setPresence p .lapsed)
     else s)

end Sys2Proof.Machine
end

