-- ==== Sys2Proof/Machine/Yields.lean ====
section
/-! DEFINITION. The yield unit: YIELD ASK, YIELD REPLY and the deadline of an ask (chapter 3). -/

namespace Sys2Proof.Machine

/-- The outcome of YIELD ASK's checks (R42). -/
inductive AskOutcome where
  | refused (st : StatusCode)
  /-- Order 10: an unowned position, granted as a claim (R43). -/
  | claim (q : KeyPos) (a : AttrSet)
  /-- Order 11: the owner is LAPSED, granted at once (R44). -/
  | lapsed (q : KeyPos) (a : AttrSet) (holder : Port)
  /-- Order 12: an entry is made (R45). -/
  | entry (q : KeyPos) (a : AttrSet) (holder : Port)
  deriving DecidableEq, Repr

/-- The named group of a SELECT set has no room (R42 order 9). -/
def State.groupFull (s : State) (a : AttrSet) : Bool :=
  match a.cls.group? with
  | none => false
  | some g => decide (Config.maxMembers ≤ s.membersOf (some g))

/-- The checks of R42 from order 3 on, for a good position and set. -/
def State.askOutcome (s : State) (p : Port) (q : KeyPos) (a : AttrSet) : AskOutcome :=
  match s.groupRefusal p a with
  | some st => .refused st
  | none =>
    if s.table[q].owner = some p then .refused .self
    else if s.table[q].hold = .fixed then .refused .fixed
    else if s.table[q].hold = .pinned then .refused .pinned
    else if (s.askOn q).isSome then .refused .asked
    else if s.groupFull a then .refused .noRoom
    else
      match s.table[q].owner with
      | none => .claim q a
      | some h => if s.presence[h] = .lapsed then .lapsed q a h else .entry q a h

/-- The checks of R42 on the operands of a YIELD ASK, in their order. -/
def State.checkAsk (s : State) (p : Port) (pos : Half) (raw : RawAttrs) : AskOutcome :=
  match position pos with
  | none => .refused .badPosition
  | some q =>
    match raw.validate with
    | none => .refused .badAttr
    | some a => s.askOutcome p q a

/-- The deadline of an ask made now (R56). -/
def State.askDeadline (s : State) : Time :=
  later s.deskTime (Config.waitUnit * s.yieldWait.toNat)

/-- An entry is made under the lowest free id, and YIELD_ASKED is offered to the holder (R45). A table without a free
id is met by no run (R40); there nothing is made. -/
def State.makeEntry (s : State) (p : Port) (q : KeyPos) (a : AttrSet) (holder : Port) : State :=
  match s.freeAsk with
  | none => s
  | some i =>
    (s.setAsk i (some { asker := p, holder := holder, pos := q, set := a, deadline := s.askDeadline })).offer holder
      (yieldReport .yieldAsked q s.table[q] (extraPair i.1 p.1))

/-- YIELD ASK as the yield unit takes it (R42 to R45). -/
def State.takeAsk (s : State) (p : Port) (pos : Half) (raw : RawAttrs) : State :=
  match s.checkAsk p pos raw with
  | .refused st => s.answer p st []
  | .claim q a => (s.acquire p a q).answerGranted p q
  | .lapsed q a h => s.grant none p h a q
  | .entry q a h => s.makeEntry p q a h

/-- YIELD_ASK (R42). A request whose entry already stands has been taken (R41). -/
def execYieldAsk (p : Port) (s : State) : Out :=
  .next
    (match s.requestOf p with
     | some (.yieldAsk pos raw) => if (s.askOf p).isSome then s else s.takeAsk p pos raw
     | _ => s)

/-- The pending ask that an id names, held by the replier (R49). -/
def State.heldAsk (s : State) (p : Port) (id : Byte) : Option (AskId × Ask) :=
  match index 4 id with
  | none => none
  | some i => (s.asks[i]).bind (fun a => if a.holder = p then some (i, a) else none)

/-- A reply: BAD_ATTR, STALE, or the end of the ask by the decision, REFUSE 0 or GRANT 1 (R49, R190). -/
def State.takeReply (s : State) (p : Port) (id decision : Byte) : State :=
  if 1 < decision.toNat then s.answer p .badAttr []
  else
    match s.heldAsk p id with
    | none => s.answer p .stale []
    | some (i, a) =>
      if decision = 1 then (s.grant (some i) a.asker p a.set a.pos).answer p .ok []
      else (s.endAsk i a .refused).answer p .ok []

/-- YIELD_REPLY (R49). -/
def execYieldReply (p : Port) (s : State) : Out :=
  .next
    (match s.requestOf p with
     | some (.yieldReply id decision) => s.takeReply p id decision
     | _ => s)

/-- ASK_DEADLINE: desk time has reached the deadline of ask `id`, which ends TIMEOUT (R50). -/
def execAskDeadline (id : AskId) (s : State) : Out :=
  .next
    (match s.asks[id] with
     | none => s
     | some a =>
       if reached s.deskTime a.deadline Config.longestWait then
         s.closeAsk id a .timeout .timedOut s.table[a.pos]
       else s)

end Sys2Proof.Machine
end

