-- ==== Sys2Proof/Machine/Dispatch.lean ====
section
/-! DEFINITION. The meaning of every command. -/

namespace Sys2Proof.Machine

def exec (i : Instr) (s : State) : Host.Outcome State Fault Refusal :=
  match i with
  | .powerOn => Sys2Proof.Machine.execPowerOn s
  | .deskTick => Sys2Proof.Machine.execDeskTick s
  | .chipSelectFall p => Sys2Proof.Machine.execChipSelectFall p s
  | .status p kindByte => Sys2Proof.Machine.execStatus p kindByte s
  | .fetch p => Sys2Proof.Machine.execFetch p s
  | .answerConsumed p => Sys2Proof.Machine.execAnswerConsumed p s
  | .notices p => Sys2Proof.Machine.execNotices p s
  | .noticeRemoval p => Sys2Proof.Machine.execNoticeRemoval p s
  | .cancel p => Sys2Proof.Machine.execCancel p s
  | .chipSelectRise p => Sys2Proof.Machine.execChipSelectRise p s
  | .submit p bytes => Sys2Proof.Machine.execSubmit p bytes s
  | .claim p => Sys2Proof.Machine.execClaim p s
  | .release p => Sys2Proof.Machine.execRelease p s
  | .pin p => Sys2Proof.Machine.execPin p s
  | .unpin p => Sys2Proof.Machine.execUnpin p s
  | .fix => Sys2Proof.Machine.execFix s
  | .lamp p => Sys2Proof.Machine.execLamp p s
  | .clearTable => Sys2Proof.Machine.execClearTable s
  | .leave p => Sys2Proof.Machine.execLeave p s
  | .readBinding p => Sys2Proof.Machine.execReadBinding p s
  | .yieldAsk p => Sys2Proof.Machine.execYieldAsk p s
  | .yieldReply p => Sys2Proof.Machine.execYieldReply p s
  | .askDeadline id => Sys2Proof.Machine.execAskDeadline id s
  | .hostLapse p => Sys2Proof.Machine.execHostLapse p s
  | .openGroup p => Sys2Proof.Machine.execOpenGroup p s
  | .closeGroup p => Sys2Proof.Machine.execCloseGroup p s
  | .clearSelection p => Sys2Proof.Machine.execClearSelection p s
  | .readGroup p => Sys2Proof.Machine.execReadGroup p s
  | .setProfile => Sys2Proof.Machine.execSetProfile s
  | .readProfile p => Sys2Proof.Machine.execReadProfile p s
  | .setPort p => Sys2Proof.Machine.execSetPort p s
  | .readHeld p => Sys2Proof.Machine.execReadHeld p s
  | .readPanel p => Sys2Proof.Machine.execReadPanel p s
  | .setLinks => Sys2Proof.Machine.execSetLinks s
  | .readDesk p => Sys2Proof.Machine.execReadDesk p s
  | .deskReset => Sys2Proof.Machine.execDeskReset s
  | .linkEnable n => Sys2Proof.Machine.execLinkEnable n s
  | .linkDisable n => Sys2Proof.Machine.execLinkDisable n s
  | .probeTimer n => Sys2Proof.Machine.execProbeTimer n s
  | .holdoffTimer n => Sys2Proof.Machine.execHoldoffTimer n s
  | .poll n => Sys2Proof.Machine.execPoll n s
  | .ident n panelType keyCount => Sys2Proof.Machine.execIdent n panelType keyCount s
  | .imageReply n keys => Sys2Proof.Machine.execImageReply n keys s
  | .edge n bitS press key => Sys2Proof.Machine.execEdge n bitS press key s
  | .nothing n => Sys2Proof.Machine.execNothing n s
  | .lost n => Sys2Proof.Machine.execLost n s
  | .accept n => Sys2Proof.Machine.execAccept n s
  | .again n => Sys2Proof.Machine.execAgain n s
  | .exchangeFailed n why => Sys2Proof.Machine.execExchangeFailed n why s
  | .lampAcceptance n => Sys2Proof.Machine.execLampAcceptance n s
  | .pressEdge q => Sys2Proof.Machine.execPressEdge q s
  | .releaseEdge q => Sys2Proof.Machine.execReleaseEdge q s
  | .repeatDue q => Sys2Proof.Machine.execRepeatDue q s

end Sys2Proof.Machine
end

