-- ==== Sys2Proof/Machine/Wire.lean ====
section
/-! DEFINITION. What travels on a panel link: frames, messages, the judging of a reply bit by bit, and the command that
an exchange with a given reply window is (chapter 9, 12.6). A reply window is the list of LDAn at each rising edge of
LCKn from the order's last stop bit on; past its end the line rests at 1 (R137). -/

namespace Sys2Proof.Machine

/-! ## Frames and messages (R138, R139) -/

/-- The 8 data bits of a frame, least significant first. -/
def dataBits (d : Byte) : List Bool :=
  (List.range 8).map (fun i => d.getLsbD i)

/-- Whether a list of bits holds an odd number of 1s. -/
def oddOnes (l : List Bool) : Bool :=
  l.foldl xor false

/-- A frame, its first bit sent first: start bit 0, K flag, data, parity, stop bit 1 (R138). -/
def frame (k : Bool) (d : Byte) : List Bool :=
  [false, k] ++ dataBits d ++ [oddOnes (k :: dataBits d), true]

/-- A message: its code and its data frames (R139). -/
structure Message where
  code : Byte
  data : List Byte
  deriving DecidableEq, Repr

/-- The bits of a message whose frames stand back to back (R138). -/
def Message.bits (m : Message) : List Bool :=
  frame true m.code ++ m.data.flatMap (frame false)

/-- Four lamps in one data frame, the lowest key in bits 0 and 1 (R193). -/
def lampFrame (a b c d : Lamp) : Byte :=
  byte (a.number + 4 * b.number + 16 * c.number + 64 * d.number)

/-- The message of an order (R140, R193). -/
def LinkOrder.message : LinkOrder → Message
  | .identify => ⟨0x51, []⟩
  | .image => ⟨0x52, []⟩
  | .poll a => ⟨0x53, [byte a.toNat]⟩
  | .lamp b v =>
    ⟨0x54, [byte b.1, lampFrame v[0] v[1] v[2] v[3], lampFrame v[4] v[5] v[6] v[7]]⟩

/-- What the part drives on LDAn at bit time `i` of the exchange in flight, counted from the first bit of its order:
the order's frames back to back, least significant bit first; `none` where it releases the line, in the reply window
and while a reply is received, between exchanges and in OFF (R137, R138, R143, R155). -/
def LinkEngine.lda (l : LinkEngine) (i : Nat) : Option Bool :=
  l.inFlight.bind (fun x => x.order.message.bits[i]?)

/-- Byte `i` of a key image: keys 8i to 8i + 7 (R142). -/
def imageByte (keys : BitVec 128) (i : Nat) : Byte :=
  keys.extractLsb' (8 * i) 8

/-- The message of a reply (R142, R193). -/
def Reply.message : Reply → Message
  | .ident t c => ⟨0xA1, [t, c]⟩
  | .image keys => ⟨0xA2, (List.range 16).map (imageByte keys)⟩
  | .nothing => ⟨0xA3, []⟩
  | .edge bitS press key => ⟨if bitS then 0xA5 else 0xA4, [byte (key.toNat + 128 * press.toNat)]⟩
  | .lost => ⟨0xA6, []⟩
  | .accept => ⟨0xA7, []⟩
  | .again => ⟨0xA8, []⟩

/-- The data frames a reply code fixes; absent for a code unknown to the part (R142, R193). -/
def replyFrames (code : Byte) : Option Nat :=
  match code.toNat with
  | 0xA1 => some 2
  | 0xA2 => some 16
  | 0xA3 => some 0
  | 0xA4 => some 1
  | 0xA5 => some 1
  | 0xA6 => some 0
  | 0xA7 => some 0
  | 0xA8 => some 0
  | _ => none

/-- The codes that are among the replies an order expects (R140). -/
def expectedCode (o : LinkOrder) (code : Byte) : Bool :=
  code.toNat == 0xA8 ||
    match o with
    | .identify => code.toNat == 0xA1
    | .image => code.toNat == 0xA2
    | .poll _ => code.toNat == 0xA3 || code.toNat == 0xA4 || code.toNat == 0xA5 || code.toNat == 0xA6
    | .lamp _ _ => code.toNat == 0xA7

/-- The key image of 16 data frames, the first holding keys 0 to 7 (R142). -/
def imageOf (data : List Byte) : BitVec 128 :=
  data.foldr (fun d acc => (acc <<< 8) ||| d.setWidth 128) 0

/-- The edge a data frame of an EDGE reply carries: key in bits 0 to 6, press in bit 7 (R193). -/
def edgeOf (bitS : Bool) (d : Byte) : Reply :=
  .edge bitS (d.getLsbD 7) (d.extractLsb' 0 7)

/-- The reply of a code and its data frames. -/
def readReply (code : Byte) (data : List Byte) : Option Reply :=
  match code.toNat, data with
  | 0xA1, [t, c] => some (.ident t c)
  | 0xA2, l => some (.image (imageOf l))
  | 0xA3, [] => some .nothing
  | 0xA4, [d] => some (edgeOf false d)
  | 0xA5, [d] => some (edgeOf true d)
  | 0xA6, [] => some .lost
  | 0xA7, [] => some .accept
  | 0xA8, [] => some .again
  | _, _ => none

/-! ## Judging an exchange (R143 to R145) -/

/-- The outcome of an exchange (R144). -/
inductive Verdict where
  | noReply | frameFault | brokenMessage | wrongReply | again
  | good (r : Reply)
  deriving DecidableEq, Repr

/-- What follows the first start bit (a 0) among the next `n` bit times, if there is one. -/
def startWithin : Nat → List Bool → Option (List Bool)
  | 0, _ => none
  | _ + 1, [] => none
  | _ + 1, false :: rest => some rest
  | n + 1, true :: rest => startWithin n rest

/-- Bit `i` of what is received; past the end the line rests at 1. -/
def bitAt (rx : List Bool) (i : Nat) : Bool :=
  (rx[i]?).getD true

/-- The byte of the 8 bits from bit 1 on. -/
def dataAt (rx : List Bool) : Byte :=
  (List.range 8).foldr (fun i acc => (acc <<< 1) ||| (BitVec.ofBool (bitAt rx (i + 1))).setWidth 8) 0

/-- The frame whose 11 bits after the start bit are next: K flag and data where it is good (R138). -/
def frameAt (rx : List Bool) : Option (Bool × Byte) :=
  if oddOnes ((List.range 10).map (bitAt rx)) || !bitAt rx 10 then none else some (bitAt rx 0, dataAt rx)

/-- The data frames due, with gaps of up to 4 bit times, and what follows them (R143, R144). -/
def readData : Nat → List Bool → Except Verdict (List Byte × List Bool)
  | 0, rx => .ok ([], rx)
  | n + 1, rx =>
    match startWithin 5 rx with
    | none => .error .frameFault
    | some body =>
      match frameAt body with
      | none => .error .frameFault
      | some (true, _) => .error .brokenMessage
      | some (false, d) =>
        match readData n (body.drop 11) with
        | .error v => .error v
        | .ok (ds, rest) => .ok (d :: ds, rest)

/-- The verdict on a complete message with nothing more within the settling (R144). -/
def judgeMessage (o : LinkOrder) (code : Byte) (data : List Byte) : Verdict :=
  match readReply code data with
  | none => .wrongReply
  | some r => if r = .again then .again else if fits o r then .good r else .wrongReply

/-- The verdict on an exchange of order `o` whose reply window reads `rx`: the first case of R144 that applies. -/
def judge (o : LinkOrder) (rx : List Bool) : Verdict :=
  match startWithin 25 rx with
  | none => .noReply
  | some body =>
    match frameAt body with
    | none => .frameFault
    | some (false, _) => .wrongReply
    | some (true, code) =>
      match replyFrames code with
      | none => .wrongReply
      | some n =>
        if expectedCode o code then
          match readData n (body.drop 11) with
          | .error v => v
          | .ok (data, rest) =>
            if (startWithin 4 rest).isSome then .frameFault else judgeMessage o code data
        else .wrongReply

/-- The bit times for which the part clocks on after a fault: until LDAn has read 1 for 4 in a row, at most the number
given; `ones` is the run of 1s so far (R145). -/
def clockOn : Nat → Nat → List Bool → Nat
  | 0, _, _ => 0
  | n + 1, ones, rx =>
    if rx.headD true then (if ones = 3 then 1 else 1 + clockOn n (ones + 1) rx.tail)
    else 1 + clockOn n 0 rx.tail

/-- The bit times from a fault to the end of its exchange, at most 204 (R145). -/
def faultLength (rx : List Bool) : Nat :=
  clockOn 204 0 rx

/-- The command that a good reply is. -/
def Reply.command (n : LinkId) : Reply → Instr
  | .ident t c => .ident n t c
  | .image keys => .imageReply n keys
  | .nothing => .nothing n
  | .edge bitS press key => .edge n bitS press key
  | .lost => .lost n
  | .accept => .accept n
  | .again => .again n

/-- The command that an exchange of order `o` on link `n` is, whose reply window reads `rx` (R144, R146). -/
def exchangeCommand (n : LinkId) (o : LinkOrder) (rx : List Bool) : Instr :=
  match judge o rx with
  | .noReply => .exchangeFailed n .noReply
  | .frameFault => .exchangeFailed n .frameFault
  | .brokenMessage => .exchangeFailed n .brokenMessage
  | .wrongReply => .exchangeFailed n .wrongReply
  | .again => .again n
  | .good r => r.command n

end Sys2Proof.Machine
end

