-- ==== Sys2Proof/Machine/Panel.lean ====
section
/-! DEFINITION. The panel's side of its link (R141, R142, R150): the agent outside the part that answers its orders.
No field of State holds it; it is written down so that statements can join the two sides of the link. -/

namespace Sys2Proof.Machine

/-- An edge as a panel keeps it. -/
structure PanelEdge where
  press : Bool
  key : BitVec 7
  deriving DecidableEq, Repr

/-- A key panel: its edge buffer holds the oldest edge first, and `outstanding` says that the oldest has been reported
and not yet acknowledged (R150). -/
structure Panel where
  panelType : Byte
  keyCount : Byte
  keys : BitVec 128
  buffer : List PanelEdge
  outstanding : Bool
  lastSent : Bool
  lost : Bool
  lamps : Vector Lamp 128
  deriving DecidableEq, Repr

/-- The oldest edge of the buffer is reported under a new edge bit, or NOTHING (R150). -/
def Panel.report (x : Panel) : Panel × Reply :=
  match x.buffer with
  | [] => ({ x with outstanding := false }, .nothing)
  | e :: _ => ({ x with outstanding := true, lastSent := !x.lastSent }, .edge (!x.lastSent) e.press e.key)

/-- What a panel does with a good POLL carrying `a` (R150). -/
def Panel.poll (x : Panel) (a : Bool) : Panel × Reply :=
  if x.lost then (x, .lost)
  else if a = x.lastSent then
    if x.outstanding then { x with buffer := x.buffer.tail }.report else x.report
  else
    match x.outstanding, x.buffer with
    | true, e :: _ => (x, .edge x.lastSent e.press e.key)
    | _, _ => (x, .nothing)

/-- The IMAGE order: the edge buffer emptied, the lost condition cleared, the last-sent bit 0 (R141). -/
def Panel.imaged (x : Panel) : Panel :=
  { x with buffer := [], outstanding := false, lastSent := false, lost := false }

/-- The lamps of block `b` set to the states carried (R141). -/
def Panel.setLamps (x : Panel) (b : Fin 16) (v : Vector Lamp 8) : Panel :=
  { x with lamps := tabulate 128 (fun k => if k.1 / 8 = b.1 then v[k.1 % 8] else x.lamps[k]) }

/-- A panel takes a good order and replies (R141). -/
def Panel.take (x : Panel) : LinkOrder → Panel × Reply
  | .identify => (x, .ident x.panelType x.keyCount)
  | .image => (x.imaged, .image x.keys)
  | .poll a => x.poll a
  | .lamp b v => (x.setLamps b v, .accept)

/-! ## An order as it is heard (R138, R139, R141, R193) -/

/-- A lamp state by its code (R193). -/
def lampOf (c : BitVec 2) : Lamp :=
  match c.toNat with
  | 0 => .off
  | 1 => .on
  | 2 => .slow
  | _ => .fast

/-- Lamp `i` of a data frame of a LAMP order (R193). -/
def lampIn (d : Byte) (i : Nat) : Lamp :=
  lampOf (d.extractLsb' (2 * i) 2)

/-- The order of a code and its data frames; none for an unknown code or a LAMP block index above 15. Unused bits of
another frame are ignored (R141, R193). -/
def readOrder (code : Byte) (data : List Byte) : Option LinkOrder :=
  match code.toNat, data with
  | 0x51, [] => some .identify
  | 0x52, [] => some .image
  | 0x53, [a] => some (.poll (a.getLsbD 0))
  | 0x54, [b, x, y] =>
    if h : b.toNat < 16 then
      some (.lamp ⟨b.toNat, h⟩
        #v[lampIn x 0, lampIn x 1, lampIn x 2, lampIn x 3, lampIn y 0, lampIn y 1, lampIn y 2, lampIn y 3])
    else none
  | _, _ => none

/-- The data frames an order code fixes (R140). -/
def orderFrames (code : Byte) : Option Nat :=
  match code.toNat with
  | 0x51 => some 0
  | 0x52 => some 0
  | 0x53 => some 1
  | 0x54 => some 3
  | _ => none

/-- What a panel makes of the bits it hears: no order, because no start bit came or the order was cut short; an order
with a fault; a good order (R141). -/
inductive Heard where
  | silence
  | fault
  | order (o : LinkOrder)
  deriving DecidableEq, Repr

/-- `x`, or silence where the part held LCKn low before `needed` bits had come (R141). -/
def unlessCut (cut : Bool) (rx : List Bool) (needed : Nat) (x : Heard) : Heard :=
  if cut && decide (rx.length < needed) then .silence else x

/-- The data frames due of an order, with gaps of up to 4 bit times, and the order they complete (R138, R139, R141). -/
def hearData (cut : Bool) (code : Byte) : Nat → List Byte → List Bool → Heard
  | 0, data, _ =>
    match readOrder code data with
    | some o => .order o
    | none => .fault
  | n + 1, data, rx =>
    match startWithin 5 rx with
    | none => unlessCut cut rx 5 .fault
    | some body =>
      unlessCut cut body 11
        (match frameAt body with
         | some (false, d) => hearData cut code n (data ++ [d]) (body.drop 11)
         | some (true, _) => .fault
         | none => .fault)

/-- What a panel makes of LDAn at the rising edges of LCKn from the beginning of an order. Past the end of `rx` the line
rests at 1 where the part clocks on; `cut` says that it holds LCKn low there instead (R137, R141). -/
def hear (rx : List Bool) (cut : Bool) : Heard :=
  match rx.dropWhile id with
  | [] => .silence
  | _ :: body =>
    unlessCut cut body 11
      (match frameAt body with
       | some (true, code) =>
         match orderFrames code with
         | some n => hearData cut code n [] (body.drop 11)
         | none => .fault
       | some (false, _) => .fault
       | none => .fault)

/-- A panel at the end of what it heard: it takes a good order and answers; it discards an order with a fault, does
nothing and answers AGAIN; it answers nothing where it heard no order, or where LCKn is held low when the answer is
due (R141). -/
def Panel.hears (x : Panel) (rx : List Bool) (cut : Bool) : Panel × Option Reply :=
  match hear rx cut with
  | .silence => (x, none)
  | .fault => (x, if cut then none else some .again)
  | .order o => ((x.take o).1, if cut then none else some (x.take o).2)

/-! ## Keys (R142, R150) -/

/-- A key of the panel goes down or up: the edge joins the buffer (R150). -/
def Panel.key (x : Panel) (press : Bool) (k : BitVec 7) : Panel :=
  { x with
    keys := if press then x.keys ||| (1#128 <<< k.toNat) else x.keys &&& ~~~(1#128 <<< k.toNat)
    buffer := x.buffer ++ [⟨press, k⟩] }

/-- The edge buffer overflows: every edge is discarded and the lost condition held (R142). -/
def Panel.overflow (x : Panel) : Panel :=
  { x with buffer := [], outstanding := false, lost := true }

end Sys2Proof.Machine
end

