-- ==== Sys2Proof/Safety.lean ====
section
/-! DEFINITION. What every run of the part keeps: the laws that the manual states to hold throughout, one structure for
each, and their conjunction. Also the words in which a statement says what a command leaves unchanged. -/

namespace Sys2Proof.Machine

/-! ## Frames -/

/-- The parts of the state, one for each field. -/
inductive Part where
  | table | held | profiles | groups | asks | presence | queues | noteLow | derived | sent | dirty | links | ports
  | deskTime | mask | pollInterval | yieldWait | resetLow | pending
  deriving DecidableEq, Repr

/-- The part is the same in both states. -/
def Part.Same (s t : State) : Part → Prop
  | .table => t.table = s.table
  | .held => t.held = s.held
  | .profiles => t.profiles = s.profiles
  | .groups => t.groups = s.groups
  | .asks => t.asks = s.asks
  | .presence => t.presence = s.presence
  | .queues => t.queues = s.queues
  | .noteLow => t.noteLow = s.noteLow
  | .derived => t.derived = s.derived
  | .sent => t.sent = s.sent
  | .dirty => t.dirty = s.dirty
  | .links => t.links = s.links
  | .ports => t.ports = s.ports
  | .deskTime => t.deskTime = s.deskTime
  | .mask => t.mask = s.mask
  | .pollInterval => t.pollInterval = s.pollInterval
  | .yieldWait => t.yieldWait = s.yieldWait
  | .resetLow => t.resetLow = s.resetLow
  | .pending => t.pending = s.pending

/-- From `s` to `t` every part is unchanged but those listed. -/
def OnlyChanges (s t : State) (l : List Part) : Prop :=
  ∀ x : Part, x ∉ l → x.Same s t

/-- The port units of `t` are those of `s`, but that port `p` is ANSWERED with this answer. -/
def Answers (s t : State) (p : Port) (st : StatusCode) (code : Byte) (data : List Byte) : Prop :=
  t.ports = upd s.ports p { s.ports[p] with state := .answered ⟨st, code, data⟩ }

/-- The command answers port `p` and changes nothing else. -/
def OnlyAnswers (c : Instr) (s : State) (p : Port) (st : StatusCode) (code : Byte) (data : List Byte) : Prop :=
  ∃ t, exec c s = .next t ∧ Answers s t p st code data ∧ OnlyChanges s t [.ports]

/-- The command leaves the state as it is. -/
def ChangesNothing (c : Instr) (s : State) : Prop :=
  exec c s = .next s

/-- From `s` to `t` these reports have been offered in turn to the queue of host `h`, no other queue has changed, and
NOTEh follows where there was an offer (R113, R121). -/
def Offered (s t : State) (h : Port) (l : List Report) : Prop :=
  t.queues = upd s.queues h (l.foldl (offerTo s.deskTime) s.queues[h]) ∧
  t.noteLow = if l = [] then s.noteLow else upd s.noteLow h (lineDrive s.ports[h].lineMode t.queues[h])

/-- From `s` to `t` each host `h` has been offered the reports `f h` in turn, and its NOTE line follows where there
was an offer (R113, R121). -/
def AllOffered (s t : State) (f : Port → List Report) : Prop :=
  ∀ h : Port,
    t.queues[h] = (f h).foldl (offerTo s.deskTime) s.queues[h] ∧
    t.noteLow[h] = if f h = [] then s.noteLow[h] else lineDrive s.ports[h].lineMode t.queues[h]

/-- A notice about key `q` with the code and generation its binding has in `s` (R109). -/
def State.noticeOf (s : State) (k : NoticeKind) (q : KeyPos) (extra : Nat) (resync lost : Bool) : Report :=
  { kind := k, resync := resync, lost := lost, pos := q, code := s.table[q].code, gen := s.table[q].gen,
    extra := BitVec.ofNat 16 extra }

/-- WITHDRAWN for a position that its owner loses, where its press is owed a closing notice (R70). -/
def State.withdrawnReport (s : State) (q : KeyPos) : List Report :=
  match s.heldAt q with
  | none => []
  | some r =>
    if r.closingDue = true then [s.noticeOf .withdrawn q r.repeatCount r.resync false] else []

/-- DESELECTED with LOST for a position that leaves its group as its selected position (R104). -/
def State.deselectedReport (s : State) (q : KeyPos) : List Report :=
  match s.table[q].cls with
  | .select g =>
    match s.groups[g] with
    | some x =>
      if x.selected = some q then [s.noticeOf .deselected q g.1 false true] else []
    | none => []
  | .momentary => []
  | .pressOnly => []
  | .repeating _ => []
  | .toggle _ => []

/-- YIELDED with the asker for each ask pending on `q` (R48). -/
def State.yieldedReport (s : State) (q : KeyPos) : List Report :=
  (List.finRange 4).flatMap (fun i =>
    match s.asks[i] with
    | some a => if a.pos = q then [s.noticeOf .yielded q a.asker.1 false false] else []
    | none => [])

/-- ASK_CLOSED with the ask's id and reason reset for each ask pending on `q` (R53). -/
def State.resetReport (s : State) (q : KeyPos) : List Report :=
  (List.finRange 4).flatMap (fun i =>
    match s.asks[i] with
    | some a => if a.pos = q then [s.noticeOf .askClosed q (256 * i.1 + 3) false false] else []
    | none => [])

/-- RELEASE for the record `r` where it is owed to host `h`; RESYNC also where the record has it (R71, R73). -/
def State.releaseReport (s : State) (h : Port) (resync lost : Bool) (r : HeldRecord) : List Report :=
  match r.openedTo with
  | some o =>
    if o.host = h ∧ r.closingDue = true then
      [s.noticeOf .release r.pos r.repeatCount (resync || r.resync) lost]
    else []
  | none => []

/-- The RELEASE notices with LOST that host `h` is offered as the session of panel `n` ends, the oldest press first
(R78). -/
def State.lostReports (s : State) (n : LinkId) (h : Port) : List Report :=
  (s.held.filter (fun r => decide (panelOf r.pos = n))).flatMap (s.releaseReport h false true)

/-- A panel notice (R109). -/
def panelReport (k : NoticeKind) (n : LinkId) (extra : Nat) : Report :=
  { kind := k, resync := false, lost := false, pos := posOf n 0, code := 0, gen := 0, extra := BitVec.ofNat 16 extra }

/-! ## What a reconciliation finds (R76) -/

/-- The record is one of panel `n` whose key the image shows up. -/
def goneFrom (n : LinkId) (keys : BitVec 128) (r : HeldRecord) : Bool :=
  decide (panelOf r.pos = n) && !keys.getLsbD (keyOf r.pos)

/-- The keys of panel `n` below its key count that the image shows down and that have no record, from key 0 upward. -/
def State.foundDown (s : State) (n : LinkId) (keyCount : Nat) (keys : BitVec 128) : List KeyPos :=
  ((List.finRange 128).filter (fun k => decide (k.1 < keyCount) && keys.getLsbD k.1)).map (posOf n)
    |>.filter (fun q => s.held.all (fun r => decide (r.pos ≠ q)))

/-- The record a key found down is given: opened to its owner by class; a SELECT key by the group rule, not given here
(R64 to R67, R76). -/
def State.foundRecord (s : State) (q : KeyPos) : HeldRecord :=
  let b := s.table[q]
  { pos := q, pressedAt := s.deskTime, openedTo := b.owner.map (fun h => ⟨h, b.gen⟩)
    closingDue :=
      b.owner.isSome && (match b.cls with
        | .momentary | .repeating _ => true
        | .pressOnly | .toggle _ | .select _ => false)
    phase :=
      match b.owner, b.cls with
      | some _, .repeating i => .delay (BitVec.ofNat 16 (s.deskTime.toNat + 10 * s.profiles[i].delay.toNat))
      | _, _ => .held
    repeatCount := 0, resync := true }

/-- What host `h` is offered for a key found down that is given a record and is not SELECT, with RESYNC (R66, R67,
R76). -/
def State.foundReport (s : State) (h : Port) (q : KeyPos) : List Report :=
  if s.table[q].owner = some h then
    match s.table[q].cls with
    | .momentary | .pressOnly | .repeating _ => [s.noticeOf .press q 0 true false]
    | .toggle l => [s.noticeOf .toggled q (!l).toNat true false]
    | .select _ => []
  else []

/-- BLOCKED with RESYNC for a key found down that finds the set full (R64, R76). -/
def State.blockedReport (s : State) (h : Port) (q : KeyPos) : List Report :=
  if s.table[q].owner = some h then [s.noticeOf .blocked q 0 true false] else []

/-- A binding pressed: a TOGGLE latch turns over, and nothing else of it changes (R95). -/
def Binding.pressed (b : Binding) : Binding :=
  match b.owner, b.cls with
  | some _, .toggle l => { b with cls := .toggle (!l) }
  | _, _ => b

/-! ## Groups -/

/-- From `s` to `t` the positions `leave g` have left group `g` and `join g` have joined it: the count follows, and the
selection becomes none where the selected position left (R22, R97, R104). -/
def Regrouped (s t : State) (leave join : GroupId → List KeyPos) : Prop :=
  ∀ g : GroupId, (s.groups[g] = none → t.groups[g] = none) ∧
    ∀ x, s.groups[g] = some x → ∃ y, t.groups[g] = some y ∧ y.owner = x.owner ∧ y.mode = x.mode ∧
      y.count + (leave g).length = x.count + (join g).length ∧
      y.selected = x.selected.filter (fun q => decide (q ∉ leave g))

/-- An ask for a SELECT binding of group `g` is pending on `q`. -/
def State.askedInto (s : State) (g : GroupId) (q : KeyPos) : Bool :=
  (List.finRange 4).any (fun i =>
    match s.asks[i] with
    | some a => decide (a.pos = q) && decide (a.set.cls = .select g)
    | none => false)

/-- A record whose opened press is withdrawn: opened to none, closing due no, phase HELD, all else kept (R70). -/
def HeldRecord.afterWithdrawal (r : HeldRecord) : HeldRecord :=
  { r with openedTo := none, closingDue := false, phase := .held }

/-- Port `p` is WORKING on request `r`. -/
def WorkingOn (s : State) (p : Port) (r : Request) : Prop :=
  s.ports[p].state = .working r

/-- The lamps of `t` follow its bindings, groups and held records, and the dirty flags follow the lamps: at the
positions of `l` and their blocks; every other lamp and flag is as in `s` (R126, R128). -/
def Redrawn (s t : State) (l : List KeyPos) : Prop :=
  (∀ q : KeyPos, t.derived[q] = if q ∈ l then t.lampFor q else s.derived[q]) ∧
  (∀ b : Fin 128, t.dirty[b] = if b ∈ l.map blockOf then dirtyFlag t.derived t.sent b else s.dirty[b])

/-! ## The laws -/

/-- A notice queue holds at most 24 entries, at most one OVERRUN and none newer than it, the 24th entry is an OVERRUN,
and a dropped count is 1 to 255 (R112, R113, R115). -/
structure QueueLaw (q : List Notice) : Prop where
  length : q.length ≤ 24
  overrunLast : ∀ n ∈ q.dropLast, n.kind ≠ .overrun
  full : q.length = 24 → ∃ n ∈ q.getLast?, n.kind = .overrun
  dropped : ∀ n ∈ q, n.kind = .overrun → 1 ≤ n.extra.toNat ∧ n.extra.toNat ≤ 255

/-- Each NOTE line follows its queue and its port's line mode (R121). -/
def State.NoteLaw (s : State) : Prop :=
  ∀ p : Port, s.noteLow[p] = lineDrive s.ports[p].lineMode s.queues[p]

/-- The held-key set never holds more than 16 records nor two for one position (R63). -/
structure State.HeldLaw (s : State) : Prop where
  length : s.held.length ≤ 16
  distinct : (s.held.map HeldRecord.pos).Nodup

/-- The session of link `n` is SYNCING or UP. -/
def Session.isSession : Session → Bool
  | .syncing _ _ _ | .up _ _ _ => true
  | .off | .probing _ | .holdoff _ => false

/-- Held records exist only for positions on panels whose session is SYNCING or UP (R63). -/
def State.HeldPanelLaw (s : State) : Prop :=
  ∀ r ∈ s.held, s.links[panelOf r.pos].session.isSession = true

/-- While a held record is opened to a host, that host owns the position with the generation recorded (R69). -/
def State.OpenLaw (s : State) : Prop :=
  ∀ r ∈ s.held, ∀ o ∈ r.openedTo, s.table[r.pos].owner = some o.host ∧ s.table[r.pos].gen = o.gen

/-- The form of a held record: only an opened record has closing due, only one with closing due has a due, a period is
10 to 2550 ms, and a count at most 65535 (R62, R89). -/
structure HeldForm (r : HeldRecord) : Prop where
  closing : r.closingDue = true → r.openedTo.isSome = true
  due : r.phase ≠ .held → r.closingDue = true
  period : ∀ x ∈ r.phase.period, 10 ≤ x ∧ x ≤ 2550
  count : r.repeatCount ≤ 65535

/-- A binding with no owner is in the unbound form; a FIXED one has an owner and is not SELECT (R6, R11, R94). -/
structure BindingLaw (b : Binding) : Prop where
  unbound : b.owner = none → b = Binding.unbound b.gen
  fixed : b.hold = .fixed → b.owner.isSome = true ∧ b.cls.group? = none

/-- A profile holds values in their ranges, its floor at most its period (R83). -/
structure ProfileLaw (f : Profile) : Prop where
  delay : 1 ≤ f.delay.toNat
  step : f.step.toNat ≤ 15
  floor : 1 ≤ f.floor.toNat
  order : f.floor.toNat ≤ f.period.toNat

/-- The members of a group: the bindings of class SELECT that name it (R96). -/
def State.members (s : State) (g : GroupId) : Nat :=
  ((List.finRange 1024).filter (fun q => decide (s.table[q].cls = .select g))).length

/-- A group's member count is the number of bindings naming it, 0 for a FREE group; its selected position is a member
of its owner's; every SELECT binding names an OPEN group of its own owner; no count exceeds 128 (R96, R97). -/
structure State.GroupLaw (s : State) : Prop where
  count : ∀ g : GroupId, (((s.groups[g]).map SelGroup.count).getD 0) = s.members g
  room : ∀ g : GroupId, s.members g ≤ 128
  selected : ∀ g : GroupId, ∀ x ∈ s.groups[g], ∀ q ∈ x.selected,
    s.table[q].cls = .select g ∧ s.table[q].owner = some x.owner
  named : ∀ q : KeyPos, ∀ g ∈ s.table[q].cls.group?, ∃ x ∈ s.groups[g], s.table[q].owner = some x.owner

/-- The yield table: every ask's holder owns the position OPEN, is PRESENT and is not the asker; the asker's port is
WORKING on the YIELD ASK that made it; no two asks for one position or of one asker; a SELECT set names an OPEN group
of the asker with room (R40 to R42). -/
structure State.YieldLaw (s : State) : Prop where
  holder : ∀ i : AskId, ∀ a ∈ s.asks[i], s.table[a.pos].owner = some a.holder ∧ s.table[a.pos].hold = .opened
  present : ∀ i : AskId, ∀ a ∈ s.asks[i], a.asker ≠ a.holder ∧ s.presence[a.holder] = .present
  working : ∀ i : AskId, ∀ a ∈ s.asks[i],
    ∃ raw : RawAttrs, raw.validate = some a.set ∧ WorkingOn s a.asker (.yieldAsk (BitVec.ofNat 16 a.pos.1) raw)
  distinct : ∀ i j : AskId, ∀ a ∈ s.asks[i], ∀ b ∈ s.asks[j], i ≠ j → a.pos ≠ b.pos ∧ a.asker ≠ b.asker
  group : ∀ i : AskId, ∀ a ∈ s.asks[i], ∀ g ∈ a.set.cls.group?,
    ∃ x ∈ s.groups[g], x.owner = a.asker ∧ x.count < 128

/-- Derived states follow the bindings and the blocks they name, and a block is dirty exactly while a derived state
differs from its sent state (R125, R126, R128). -/
structure State.LampLaw (s : State) : Prop where
  derived : ∀ q : KeyPos, s.derived[q] = s.lampFor q
  dirty : ∀ b : Fin 128, s.dirty[b] = dirtyFlag s.derived s.sent b

/-- The order in flight is one that the session's state sends, or was in flight as it passed to SYNCING
(R140, R149, R154). -/
def orderAllowed : Session → Option Exchange → Bool
  | .off, x => x.isNone
  | .holdoff _, x => x.isNone
  | .probing _, none => true
  | .probing _, some x => x.order.kind == .identify
  | .syncing _ _ _, none => false
  | .syncing _ _ _, some x => x.order.kind != .identify
  | .up _ _ _, none => true
  | .up _ _ _, some x => x.order.kind == .poll || x.order.kind == .lamp

/-- A link engine's own record (R137, R143, R146, R148, R154, R163, R165); an edge handed over is live only while the
session is UP (R63). -/
structure LinkLaw (n : LinkId) (l : LinkEngine) : Prop where
  clock : l.lck = .clocking ↔ l.inFlight.isSome = true
  off : l.lck = .low ↔ l.session = .off
  order : orderAllowed l.session l.inFlight = true
  attempt : ∀ x ∈ l.inFlight, x.attempt = l.failures + 1
  failures : l.failures ≤ 2
  noSession : l.session.isSession = false → l.failures = 0
  keyCount : ∀ i ∈ l.session.identity, 1 ≤ i.keyCount ∧ i.keyCount ≤ 128
  failedCount : l.failedCount ≤ 65535
  lostCount : l.lostCount ≤ 255
  edges : ∀ e ∈ l.edges, panelOf e.pos = n
  live : ∀ e ∈ l.edges, e.live = true → l.session.isUp = true

/-- A link is OFF exactly while its place in the mask is disabled, but for a change it has been handed and not taken,
and for the hold in power-on reset, before power-on enables it (R155); a change stands handed only while port 0 is
WORKING on its SET LINKS (R166). -/
structure State.MaskLaw (s : State) : Prop where
  settled : s.resetLow = false →
    ∀ n : LinkId, s.links[n].handed = none → (s.links[n].session = .off ↔ s.enabled n = false)
  handed : ∀ n : LinkId, ∀ e ∈ s.links[n].handed, s.enabled n = e ∧ (s.links[n].session = .off ↔ e = true)
  waits : ∀ n : LinkId, (s.links[n].handed).isSome = true → s.workingOnSetLinks = true

/-- A transaction in progress (R116, R117, R171, R179, R180). -/
structure TransactionLaw (u : PortUnit) (q : List Notice) (t : Transaction) : Prop where
  low : u.csLow = true
  fresh : t.reading = .unread → t.out = []
  count : t.count ≤ 24
  left : t.left ≤ t.count ∧ t.left ≤ q.length
  fetching : ∀ rest, t.reading = .fetch rest true → ∃ a, u.state = .answered a ∧ t.out ++ rest = a.bytes ∧ rest ≠ []
  noticing : ∀ c k, t.reading = .notices c k → k ≤ 9

/-- A port: its transaction, its lapse timer, and the requests it takes (R57, R58, R60, R176). -/
structure PortLaw (p : Port) (u : PortUnit) (q : List Notice) (x : Presence) : Prop where
  txn : ∀ t ∈ u.txn, TransactionLaw u q t
  lapseTime : u.lapseTime.toNat ≤ 60
  timer : u.lapseStart.isSome = true → u.csLow = false
  lapsed : x = .lapsed → u.csLow = false ∧ u.lapseTime ≠ 0
  supervisor : ∀ r, u.state = .working r → r.supervisorOnly = true → p = 0

/-- While the part is held in power-on reset, every record stands at its power-on value, every LCKn is low with no
exchange in flight, every NOTE line is released and no port has a transaction (R185). -/
def State.HoldLaw (s : State) : Prop :=
  s.resetLow = true → s = s.holdReset

/-- All the laws. -/
structure State.Law (s : State) : Prop where
  queue : ∀ p : Port, QueueLaw s.queues[p]
  note : s.NoteLaw
  held : s.HeldLaw
  heldPanel : s.HeldPanelLaw
  opened : s.OpenLaw
  heldForm : ∀ r ∈ s.held, HeldForm r
  binding : ∀ q : KeyPos, BindingLaw s.table[q]
  profile : ∀ i : ProfileId, ProfileLaw s.profiles[i]
  group : s.GroupLaw
  yield : s.YieldLaw
  lamp : s.LampLaw
  link : ∀ n : LinkId, LinkLaw n s.links[n]
  mask : s.MaskLaw
  port : ∀ p : Port, PortLaw p s.ports[p] s.queues[p] s.presence[p]
  hold : s.HoldLaw

end Sys2Proof.Machine
end

