-- ==== Sys2Proof/Certificates/Slice0/Obligations.lean ====
section
/-! DEFINITION. The statements for the provers. Each docstring says which rules of the manual the statement formalises, and
names the log entry where a clause rests on a choice of the model. -/

open Sys2Proof Sys2Proof.Machine

/-! ## The machine -/

/-- A step runs the command at the front of the queue on the state with the queue's rest; with no command waiting it
idles. The queue is the model's own (log entry 4). -/
def Obligations.FrontCommandRuns : Prop :=
  (∀ (s : State) (c : Instr) (rest : List Instr),
    s.pending = c :: rest → step s = exec c { s with pending := rest }) ∧
  (∀ s : State, s.pending = [] → step s = .next s)

/-- Every command in every state is answered by a next state and leaves the waiting commands as they are: the manual
stops the part nowhere (log entries 1 and 4). -/
def Obligations.EveryCommandCompletes : Prop :=
  ∀ (c : Instr) (s : State), ∃ t, exec c s = .next t ∧ t.pending = s.pending

/-- POWER_ON, and the hold in power-on reset. Outside the hold it begins it: every record takes its power-on value,
every link rests with LCKn low, no exchange and LDAn released, the NOTE lines are released and no data output is
driven; while the hold lasts no other command changes anything but the level of a chip select pin. In the hold it ends
it, with every record at its power-on value and every link PROBING, its first IDENTIFY begun (R17, R61, R80, R84,
R106, R124, R135, R153, R155, R169, R182, R185). That one command stands for each change of the RESET level, that the
records take their values as the hold begins, that desk time stands in it, that the chip select pins keep their levels
and that the waiting commands stay are the model's (log entry 2). -/
def Obligations.PowerOnValues : Prop :=
  let values := fun (s t : State) (link : LinkEngine) =>
    (∀ q : KeyPos, t.table[q] = Binding.unbound 0 ∧ t.derived[q] = .off ∧ t.sent[q] = none) ∧
    (∀ b : Fin 128, t.dirty[b] = true) ∧
    t.held = [] ∧ (∀ g : GroupId, t.groups[g] = none) ∧ (∀ i : AskId, t.asks[i] = none) ∧
    (∀ p : Port, t.presence[p] = .present ∧ t.queues[p] = [] ∧ t.noteLow[p] = false) ∧
    (∀ p : Port, t.ports[p] =
      { state := .idle, refused := false, lapseFlag := false, lineMode := .any, lapseTime := 0, lapseStart := none,
        csLow := s.ports[p].csLow, txn := none, lastOut := [] }) ∧
    (∀ n : LinkId, t.links[n] = link) ∧
    (t.profiles.toList.map (fun f => (10 * f.delay.toNat, 10 * f.period.toNat, f.step.toNat, 10 * f.floor.toNat))
      = [(500, 100, 0, 100), (300, 50, 0, 50), (700, 200, 0, 200), (400, 150, 4, 30),
         (250, 100, 8, 20), (1000, 500, 0, 500), (600, 80, 6, 20), (200, 40, 0, 40)]) ∧
    t.deskTime = 0 ∧ t.mask = 0xFF ∧ t.pollInterval = 5 ∧ t.yieldWait = 20 ∧ t.pending = s.pending
  let resting : LinkEngine :=
    { session := .off, bitL := false, failures := 0, failedCount := 0, lostCount := 0, inFlight := none, lck := .low,
      handed := none, edges := [], acceptances := [] }
  (∀ s : State, s.resetLow = false → ∃ t, exec .powerOn s = .next t ∧ t.resetLow = true ∧ values s t resting ∧
    (∀ (n : LinkId) (i : Nat), t.links[n].lda i = none) ∧ (∀ p : Port, t.sdoDriven p = false)) ∧
  (∀ s : State, s.resetLow = true → ∃ t, exec .powerOn s = .next t ∧ t.resetLow = false ∧
    values s t { resting with session := .probing 250, inFlight := some ⟨.identify, 1⟩, lck := .clocking }) ∧
  (∀ (s : State) (c : Instr), s.resetLow = true → s.HoldLaw → c ≠ .powerOn →
    ∃ t, exec c s = .next t ∧ t.resetLow = true ∧ t.HoldLaw)

/-- The state after power-on obeys every law. -/
def Obligations.ResetObeysLaws : Prop :=
  State.reset.Law

/-- Every step keeps all the laws together (R6, R12, R40, R41, R63, R69, R94, R96, R112, R121, R126, R128, R154,
R175). -/
def Obligations.StepKeepsLaws : Prop :=
  ∀ s t : State, s.Law → step s = .next t → t.Law

/-- Every step keeps the law of the notice queues (R112). -/
def Obligations.StepKeepsQueues : Prop :=
  ∀ s t : State, (∀ p : Port, QueueLaw s.queues[p]) → step s = .next t → ∀ p : Port, QueueLaw t.queues[p]

/-- Every step keeps the laws of the held-key set: at most 16 records, one a position, and an opened record's host owns
the position with the generation recorded (R63, R69). -/
def Obligations.StepKeepsHeldSet : Prop :=
  ∀ s t : State, s.HeldLaw → s.OpenLaw → step s = .next t → t.HeldLaw ∧ t.OpenLaw

/-- Every step keeps the second law of the held-key set: records only for panels in SYNCING or UP (R63). -/
def Obligations.StepKeepsHeldPanels : Prop :=
  ∀ s t : State, s.HeldPanelLaw → step s = .next t → t.HeldPanelLaw

/-- Every step keeps each NOTE line in accord with its queue and its line mode (R121). -/
def Obligations.StepKeepsNoteLines : Prop :=
  ∀ s t : State, s.NoteLaw → step s = .next t → t.NoteLaw

/-- Every step keeps the law of the binding records: the unbound form without an owner; FIXED only with an owner and a
class other than SELECT (R6, R11). -/
def Obligations.StepKeepsBindings : Prop :=
  ∀ s t : State, (∀ q : KeyPos, BindingLaw s.table[q]) → step s = .next t → ∀ q : KeyPos, BindingLaw t.table[q]

/-- Every step keeps each link engine's record well formed: LCKn, the order in flight, its attempt number, the counts
and the identity (R137, R143, R146, R148, R154); and an edge handed over stays live only while its session stays UP
(R63). -/
def Obligations.StepKeepsLinks : Prop :=
  ∀ s t : State, (∀ n : LinkId, LinkLaw n s.links[n]) → step s = .next t → ∀ n : LinkId, LinkLaw n t.links[n]

/-- A command other than POWER_ON changes a binding's generation exactly when it changes its owner (R12). -/
def Obligations.GenerationFollowsOwner : Prop :=
  ∀ (s t : State) (c : Instr) (q : KeyPos), s.YieldLaw → c ≠ .powerOn → exec c s = .next t →
    (t.table[q].gen = s.table[q].gen ↔ t.table[q].owner = s.table[q].owner)

/-- An answer waiting in a port is changed by no command but the consumption of its last byte and power-on
(R177, R178, R180). -/
def Obligations.AnswerStands : Prop :=
  ∀ (s t : State) (c : Instr) (p : Port) (a : Answer), s.ports[p].state = .answered a →
    c ≠ .answerConsumed p → c ≠ .powerOn → exec c s = .next t → t.ports[p].state = .answered a

/-- DESK_TICK raises desk time by 1, 65535 followed by 0, and nothing else moves with it; no other command but POWER_ON
changes desk time (R182). That desk time stands in the hold of power-on reset is log entry 2. -/
def Obligations.DeskTimeMovesByTick : Prop :=
  (∀ s : State, s.resetLow = false → ∃ t, exec .deskTick s = .next t ∧
    t.deskTime.toNat = (s.deskTime.toNat + 1) % 65536 ∧ OnlyChanges s t [.deskTime]) ∧
  (∀ s : State, s.resetLow = true → ChangesNothing .deskTick s) ∧
  (∀ (s t : State) (c : Instr), c ≠ .deskTick → c ≠ .powerOn → exec c s = .next t → t.deskTime = s.deskTime)

/-! ## Host ports -/

/-- CHIP_SELECT_FALL begins a transaction: status byte and count fixed, the host PRESENT, the lapse timer standing;
CHIP_SELECT_RISE ends it and restarts the lapse timer, what it clocked out whole being the status byte and the bytes
after it, or nothing before its kind byte was complete. SDOn is driven exactly while chip select is low. In the hold
of power-on reset a fall begins nothing and no SDOn is driven (R57, R60, R116, R171 to R173, R185, R188). A fall of a
pin that is low, and a rise that ends no transaction, are the model's cases (log entries 1 and 2), and the record of
what was clocked out is log entry 14. -/
def Obligations.ChipSelectBoundsTransactions : Prop :=
  ∀ (s : State) (p : Port),
    (s.ports[p].csLow = false → s.resetLow = false → ∃ t, exec (.chipSelectFall p) s = .next t ∧
      t.presence = upd s.presence p .present ∧
      t.ports = upd s.ports p
        { s.ports[p] with
          csLow := true, lapseStart := none
          txn := some
            { statusByte := statusByteOf p s.ports[p] s.queues[p], count := s.queues[p].length,
              left := s.queues[p].length, reading := .unread, out := [] } } ∧
      (∀ k : Port, t.sdoDriven k = true ↔ k = p ∨ s.sdoDriven k = true) ∧ OnlyChanges s t [.presence, .ports]) ∧
    (s.ports[p].csLow = false → s.resetLow = true → ∃ t, exec (.chipSelectFall p) s = .next t ∧
      t.ports = upd s.ports p { s.ports[p] with csLow := true } ∧ (∀ k : Port, t.sdoDriven k = false) ∧
      OnlyChanges s t [.ports]) ∧
    (s.ports[p].csLow = true → ChangesNothing (.chipSelectFall p) s) ∧
    (∀ x, s.ports[p].txn = some x → ∃ t, exec (.chipSelectRise p) s = .next t ∧
      t.ports = upd s.ports p
        { s.ports[p] with
          csLow := false, lapseStart := some s.deskTime, txn := none
          lastOut := if x.reading = .unread then [] else x.statusByte :: x.out } ∧
      (∀ k : Port, t.sdoDriven k = true ↔ k ≠ p ∧ s.sdoDriven k = true) ∧ OnlyChanges s t [.ports]) ∧
    (s.ports[p].txn = none → ∃ t, exec (.chipSelectRise p) s = .next t ∧
      t.ports = upd s.ports p { s.ports[p] with csLow := false } ∧ OnlyChanges s t [.ports])

/-- The codes of the five kinds of transaction, each byte of no other kind being a STATUS, and the command each spells
as its kind byte completes or as chip select rises; the status byte's bits; and STATUS: its kind byte completes the
status byte, which clears the lapse flag where it showed it; later bytes read 0x00 (R172 to R174, R176, R189). That a
later byte is the STATUS command taken again is log entry 5. -/
def Obligations.StatusShowsThePort : Prop :=
  (∀ p : Port,
    kindCommand p 0xA5 = none ∧ kindCommand p 0x5A = some (.fetch p) ∧ kindCommand p 0x3C = some (.notices p) ∧
    kindCommand p 0xC3 = some (.cancel p) ∧
    (∀ b : Byte, b ∉ [0xA5#8, 0x5A#8, 0x3C#8, 0xC3#8] → kindCommand p b = some (.status p b)) ∧
    (∀ bytes, endCommand p (0xA5 :: bytes) = .submit p bytes) ∧ endCommand p [] = .chipSelectRise p ∧
    (∀ b bytes, b ≠ 0xA5#8 → endCommand p (b :: bytes) = .chipSelectRise p)) ∧
  (∀ (p : Port) (u : PortUnit) (l : List Notice),
    (u.state = .idle → (statusByteOf p u l).toNat % 4 = 0) ∧
    (∀ r, u.state = .working r → (statusByteOf p u l).toNat % 4 = 1) ∧
    (∀ a, u.state = .answered a → (statusByteOf p u l).toNat % 4 = 2) ∧
    ((statusByteOf p u l).getLsbD 2 = true ↔ l ≠ []) ∧
    ((statusByteOf p u l).getLsbD 3 = true ↔
      ∃ n ∈ l, n.kind ∈ [NoticeKind.withdrawn, .yieldAsked, .yielded, .panelDown, .overrun]) ∧
    (statusByteOf p u l).getLsbD 4 = u.refused ∧ (statusByteOf p u l).getLsbD 5 = u.lapseFlag ∧
    ((statusByteOf p u l).getLsbD 6 = true ↔ p = 0) ∧ (statusByteOf p u l).getLsbD 7 = false) ∧
  (∀ (s : State) (p : Port) (b : Byte) (x : Transaction), s.ports[p].txn = some x →
    (x.reading = .unread → b ∉ [0xA5#8, 0x5A#8, 0x3C#8, 0xC3#8] → ∃ t, exec (.status p b) s = .next t ∧
      t.ports = upd s.ports p
        { s.ports[p] with
          txn := some { x with reading := .status }
          lapseFlag := s.ports[p].lapseFlag && !x.statusByte.getLsbD 5 } ∧
      OnlyChanges s t [.ports]) ∧
    (x.reading = .status → ∃ t, exec (.status p b) s = .next t ∧
      t.ports = upd s.ports p { s.ports[p] with txn := some { x with out := x.out ++ [0] } } ∧
      OnlyChanges s t [.ports]))

/-- FETCH fixes what it clocks out as its kind byte completes: the answer, NOT_READY or NONE, each with its length;
then one byte a command, 0x00 past the end. ANSWER_CONSUMED clocks the rest of the answer and makes the port IDLE
(R174, R179, R180, R188). That the last byte of an answer is ANSWER_CONSUMED's is log entry 5. -/
def Obligations.FetchClocksTheAnswer : Prop :=
  ∀ (s : State) (p : Port) (x : Transaction), s.ports[p].txn = some x →
    (x.reading = .unread → ∃ t, exec (.fetch p) s = .next t ∧
      (∃ rest live,
        t.ports = upd s.ports p
          { s.ports[p] with
            txn := some { x with reading := .fetch rest live }
            lapseFlag := s.ports[p].lapseFlag && !x.statusByte.getLsbD 5 } ∧
        (∀ a, s.ports[p].state = .answered a → live = true ∧
          rest = [BitVec.ofNat 8 a.status.number, a.code, BitVec.ofNat 8 a.data.length] ++ a.data) ∧
        (∀ r, s.ports[p].state = .working r → live = false ∧ rest = [0x17, r.code, 0]) ∧
        (s.ports[p].state = .idle → live = false ∧ rest = [0x18, 0, 0])) ∧
      OnlyChanges s t [.ports]) ∧
    (∀ b rest live, x.reading = .fetch (b :: rest) live → (live = true → rest ≠ []) →
      ∃ t, exec (.fetch p) s = .next t ∧
        t.ports = upd s.ports p
          { s.ports[p] with txn := some { x with reading := .fetch rest live, out := x.out ++ [b] } } ∧
        OnlyChanges s t [.ports]) ∧
    (∀ live, x.reading = .fetch [] live → ∃ t, exec (.fetch p) s = .next t ∧
      t.ports = upd s.ports p { s.ports[p] with txn := some { x with out := x.out ++ [0] } } ∧
      OnlyChanges s t [.ports]) ∧
    (∀ rest, x.reading = .fetch rest true → ∃ t, exec (.answerConsumed p) s = .next t ∧
      t.ports = upd s.ports p
        { s.ports[p] with
          state := .idle, txn := some { x with reading := .fetch [] false, out := x.out ++ rest } } ∧
      OnlyChanges s t [.ports])

/-- NOTICES reads out the count fixed as chip select fell and the head entry byte by byte, 0x00 once the counted
entries are done; NOTICE_REMOVAL clocks the rest of the head entry, which leaves the queue, and NOTEn follows; a
notice is the ten bytes of R191, its kinds coded 0x01 to 0x0F (R116, R117, R121, R188, R191). That the tenth byte is
NOTICE_REMOVAL's is log entry 5. -/
def Obligations.NoticesReadOut : Prop :=
  (∀ n : Notice, n.bytes =
    [BitVec.ofNat 8 n.kind.number, BitVec.ofNat 8 (128 * n.resync.toNat + 64 * n.lost.toNat + n.pos.1 / 256),
      BitVec.ofNat 8 (n.pos.1 % 256), n.code.extractLsb' 8 8, n.code.extractLsb' 0 8, n.gen, n.extra.extractLsb' 8 8,
      n.extra.extractLsb' 0 8, n.stamp.extractLsb' 8 8, n.stamp.extractLsb' 0 8]) ∧
  [NoticeKind.press, .repeated, .release, .toggled, .selected, .blocked, .deselected, .withdrawn, .yieldAsked, .yielded,
    .panelUp, .panelDown, .panelResync, .overrun, .askClosed].map NoticeKind.number = List.range' 1 15 ∧
  ∀ (s : State) (p : Port) (x : Transaction), s.ports[p].txn = some x →
    (x.reading = .unread → ∃ t, exec (.notices p) s = .next t ∧
      t.ports = upd s.ports p
        { s.ports[p] with
          txn := some { x with reading := .notices false 0 }
          lapseFlag := s.ports[p].lapseFlag && !x.statusByte.getLsbD 5 } ∧
      OnlyChanges s t [.ports]) ∧
    (x.reading = .notices false 0 → ∃ t, exec (.notices p) s = .next t ∧
      t.ports = upd s.ports p
        { s.ports[p] with
          txn := some { x with reading := .notices true 0, out := x.out ++ [BitVec.ofNat 8 x.count] } } ∧
      OnlyChanges s t [.ports]) ∧
    (∀ k n rest, x.reading = .notices true k → k < 9 → 0 < x.left → s.queues[p] = n :: rest →
      ∃ t, exec (.notices p) s = .next t ∧
        (∃ b, n.bytes[k]? = some b ∧
          t.ports = upd s.ports p
            { s.ports[p] with txn := some { x with reading := .notices true (k + 1), out := x.out ++ [b] } }) ∧
        OnlyChanges s t [.ports]) ∧
    (∀ k, x.reading = .notices true k → x.left = 0 → ∃ t, exec (.notices p) s = .next t ∧
      t.ports = upd s.ports p { s.ports[p] with txn := some { x with out := x.out ++ [0] } } ∧
      OnlyChanges s t [.ports]) ∧
    (∀ k m n rest, x.reading = .notices true k → x.left = m + 1 → s.queues[p] = n :: rest →
      ∃ t, exec (.noticeRemoval p) s = .next t ∧
        t.queues = upd s.queues p rest ∧
        t.ports = upd s.ports p
          { s.ports[p] with
            txn := some { x with left := m, reading := .notices true 0, out := x.out ++ n.bytes.drop k } } ∧
        t.noteLow = upd s.noteLow p (lineDrive s.ports[p].lineMode rest) ∧
        OnlyChanges s t [.queues, .ports, .noteLow]) ∧
    (∀ k, x.reading = .notices true k → x.left = 0 → ChangesNothing (.noticeRemoval p) s)

/-- CANCEL, as its kind byte completes, ends the port's own pending ask: the entry removed, the port ANSWERED CANCELLED,
ASK_CLOSED with reason cancelled to the holder; in every other port state it has no effect (R51, R172, R174, R181). -/
def Obligations.CancelEndsTheOwnAsk : Prop :=
  ∀ (s : State) (p : Port) (x : Transaction), s.ports[p].txn = some x → x.reading = .unread →
    (∀ w raw i a, WorkingOn s p (.yieldAsk w raw) → s.asks[i] = some a → a.asker = p →
      (∀ j b, s.asks[j] = some b → b.asker = p → j = i) →
      ∃ t, exec (.cancel p) s = .next t ∧
        t.asks = upd s.asks i none ∧
        t.ports = upd s.ports p
          { s.ports[p] with
            state := .answered ⟨.cancelled, 0x20, []⟩
            txn := some { x with reading := .cancel }
            lapseFlag := s.ports[p].lapseFlag && !x.statusByte.getLsbD 5 } ∧
        Offered s t a.holder [s.noticeOf .askClosed a.pos (256 * i.1 + 1) false false] ∧
        OnlyChanges s t [.asks, .ports, .queues, .noteLow]) ∧
    ((∀ w raw, WorkingOn s p (.yieldAsk w raw) → ∀ (j : AskId) b, s.asks[j] = some b → b.asker ≠ p) →
      ∃ t, exec (.cancel p) s = .next t ∧
        t.ports = upd s.ports p
          { s.ports[p] with
            txn := some { x with reading := .cancel }
            lapseFlag := s.ports[p].lapseFlag && !x.statusByte.getLsbD 5 } ∧
        OnlyChanges s t [.ports])

/-- SUBMIT taken in IDLE: the bytes of any of the 23 requests, whatever follows them, make the port WORKING on exactly
that request; REFUSED is cleared, the rise restarts the lapse timer, and 0x00 was clocked out after the status byte
for each byte after the kind byte (R57, R172, R174, R176, R190). The record of what was clocked out is log entry 14. -/
def Obligations.SubmitTakesEveryRequest : Prop :=
  ∀ (s : State) (p : Port) (x : Transaction) (r : Request) (extra : List Byte),
    s.ports[p].txn = some x → x.reading = .unread → s.ports[p].state = .idle →
    (r.supervisorOnly = true → p = 0) →
    ∃ t, exec (.submit p (r.code :: (r.operands ++ extra))) s = .next t ∧
      t.ports = upd s.ports p
        { s.ports[p] with
          state := .working r, refused := false, csLow := false, txn := none, lapseStart := some s.deskTime
          lastOut := x.statusByte :: List.replicate (1 + r.operands.length + extra.length) 0
          lapseFlag := s.ports[p].lapseFlag && !x.statusByte.getLsbD 5 } ∧
      OnlyChanges s t [.ports]

/-- SUBMIT answered at the port: SHORT without a code byte, UNKNOWN for a code of none of the 23 requests, SHORT for
too few operand bytes, SUPERVISOR on ports 1 to 3; and a SUBMIT in WORKING or ANSWERED, which is discarded and sets
REFUSED. In each case 0x00 was clocked out after the status byte for each byte after the kind byte (R172, R176, R177).
The record of what was clocked out is log entry 14. -/
def Obligations.SubmitRefusedAtThePort : Prop :=
  ∀ (s : State) (p : Port) (x : Transaction), s.ports[p].txn = some x → x.reading = .unread →
    let risen : PortUnit :=
      { s.ports[p] with
        csLow := false, txn := none, lapseStart := some s.deskTime
        lapseFlag := s.ports[p].lapseFlag && !x.statusByte.getLsbD 5 }
    let leaves := fun (bytes : List Byte) (u : PortUnit) =>
      ∃ t, exec (.submit p bytes) s = .next t ∧
        t.ports = upd s.ports p { u with lastOut := x.statusByte :: List.replicate bytes.length 0 } ∧
        OnlyChanges s t [.ports]
    (s.ports[p].state = .idle →
      leaves [] { risen with state := .answered ⟨.short, 0, []⟩, refused := false } ∧
      (∀ c ops, (∀ r : Request, r.code ≠ c) →
        leaves (c :: ops) { risen with state := .answered ⟨.unknown, c, []⟩, refused := false }) ∧
      (∀ (r : Request) ops, ops.length < r.operands.length →
        leaves (r.code :: ops) { risen with state := .answered ⟨.short, r.code, []⟩, refused := false }) ∧
      (∀ (r : Request) ops, r.operands.length ≤ ops.length → r.supervisorOnly = true → p ≠ 0 →
        leaves (r.code :: ops) { risen with state := .answered ⟨.supervisor, r.code, []⟩, refused := false })) ∧
    (s.ports[p].state ≠ .idle → ∀ bytes, leaves bytes { risen with refused := true })

/-- HOST_LAPSE: when the lapse timer has run out the host becomes LAPSED with its lapse flag set, and every pending
ask it holds is granted: the position the asker's under the asked set with generation +1, the asker ANSWERED GRANTED
with it; asks of other holders and other positions stand (R47, R57, R58). What counts as run out, a lapse taken late
included, is log entry 3. -/
def Obligations.HostLapseGrantsItsAsks : Prop :=
  ∀ (s : State) (p : Port) (start : Time), s.YieldLaw → s.ports[p].lapseStart = some start →
    s.ports[p].lapseTime ≠ 0 → 1000 * s.ports[p].lapseTime.toNat ≤ (s.deskTime - start).toNat →
    ∃ t, exec (.hostLapse p) s = .next t ∧
      t.presence = upd s.presence p .lapsed ∧
      t.ports[p] = { s.ports[p] with lapseStart := none, lapseFlag := true } ∧
      (∀ (i : AskId) (a : Ask), s.asks[i] = some a → a.holder = p →
        t.asks[i] = none ∧ t.table[a.pos] = s.table[a.pos].take a.asker a.set ∧
        t.ports[a.asker] =
          { s.ports[a.asker] with state := .answered ⟨.granted, 0x20, [s.table[a.pos].gen + 1]⟩ }) ∧
      (∀ (i : AskId) (a : Ask), s.asks[i] = some a → a.holder ≠ p → t.asks[i] = some a) ∧
      (∀ q : KeyPos, (∀ (i : AskId) (a : Ask), s.asks[i] = some a → a.holder = p → a.pos ≠ q) →
        t.table[q] = s.table[q]) ∧
      OnlyChanges s t [.presence, .ports, .asks, .table, .held, .groups, .queues, .noteLow, .derived, .dirty]

/-- SET_PORT: both settings are written, NOTEn is driven for the new mode at once, and a lapse time of 0 makes the host
PRESENT; a mode above 2 or a lapse time above 60 is BAD_ATTR with nothing changed (R57, R60, R121, R122, R190). -/
def Obligations.SetPortWritesSettings : Prop :=
  ∀ (s : State) (p : Port) (mode lapse : Byte), WorkingOn s p (.setPort mode lapse) →
    ((2 < mode.toNat ∨ 60 < lapse.toNat) → OnlyAnswers (.setPort p) s p .badAttr 0x50 []) ∧
    (∀ m : LineMode, [LineMode.off, .urgent, .any][mode.toNat]? = some m → lapse.toNat ≤ 60 →
      ∃ t, exec (.setPort p) s = .next t ∧
        t.ports = upd s.ports p
          { s.ports[p] with lineMode := m, lapseTime := lapse, state := .answered ⟨.ok, 0x50, []⟩ } ∧
        t.noteLow = upd s.noteLow p (lineDrive m s.queues[p]) ∧
        t.presence = (if lapse = 0 then upd s.presence p .present else s.presence) ∧
        OnlyChanges s t [.ports, .noteLow, .presence])

/-- A notice offered to a queue: counted by an OVERRUN that is there, else renewing a REPEAT of the same press, else
replaced by an OVERRUN as the 24th entry, else appended with the present desk time (R113, R114, R115). -/
def Obligations.OffersTakeTheFirstCase : Prop :=
  ∀ (now : Time) (l : List Notice) (r : Report),
    ((∃ n ∈ l, n.kind = .overrun) →
      offerTo now l r = l.map (fun n =>
        if n.kind = .overrun then { n with extra := if n.extra.toNat < 255 then n.extra + 1 else n.extra } else n)) ∧
    ((∀ n ∈ l, n.kind ≠ .overrun) →
      (∀ (older : List Notice) (n : Notice), l = older ++ [n] → r.kind = .repeated → n.kind = .repeated →
        n.pos = r.pos → n.gen = r.gen → offerTo now l r = older ++ [{ n with extra := r.extra, stamp := now }]) ∧
      ((∀ n ∈ l.getLast?, ¬ (r.kind = .repeated ∧ n.kind = .repeated ∧ n.pos = r.pos ∧ n.gen = r.gen)) →
        (l.length = 23 → ∃ n, offerTo now l r = l ++ [n] ∧ n.kind = .overrun ∧ n.extra = 1 ∧ n.stamp = now ∧
          n.pos = 0 ∧ n.code = 0 ∧ n.gen = 0 ∧ n.resync = false ∧ n.lost = false) ∧
        (l.length < 23 → offerTo now l r = l ++ [{ r with stamp := now }])))

/-! ## Binding controller -/

/-- The range check, and BAD_POSITION with offset 0 for each range request that fails it, nothing else changed (R2). -/
def Obligations.RangeCheck : Prop :=
  (∀ (f : Half) (n : Byte),
    (rangeOf f n = none ↔
      1023 < f.toNat ∨ n.toNat = 0 ∨ 128 < n.toNat ∨ 128 < f.toNat % 128 + n.toNat) ∧
    (∀ qs, rangeOf f n = some qs → qs.map Fin.val = List.range' f.toNat n.toNat)) ∧
  (∀ (s : State) (p : Port) (f : Half) (n : Byte), rangeOf f n = none →
    (∀ raw, WorkingOn s p (.claim f n raw) → OnlyAnswers (.claim p) s p .badPosition 0x10 [0]) ∧
    (WorkingOn s p (.release f n) → OnlyAnswers (.release p) s p .badPosition 0x11 [0]) ∧
    (WorkingOn s p (.pin f n) → OnlyAnswers (.pin p) s p .badPosition 0x12 [0]) ∧
    (WorkingOn s p (.unpin f n) → OnlyAnswers (.unpin p) s p .badPosition 0x13 [0]) ∧
    (WorkingOn s 0 (.fix f n) → OnlyAnswers .fix s 0 .badPosition 0x14 [0]) ∧
    (∀ v, WorkingOn s p (.lamp f n v) → OnlyAnswers (.lamp p) s p .badPosition 0x15 [0]))

/-- Attribute validation: a set is refused in the seven cases of R9 and no other; a good set keeps class, code, lamp
mode and lamp value as sent, the profile for REPEATING alone and the group for SELECT alone, a latch OFF (R9, R10). -/
def Obligations.AttributeValidation : Prop :=
  ∀ raw : RawAttrs,
    (raw.validate = none ↔
      4 < raw.cls.toNat ∨ 4 < raw.lampMode.toNat ∨ 3 < raw.lampValue.toNat ∨
      (raw.lampMode.toNat = 3 ∧ raw.cls.toNat ≠ 3) ∨ (raw.lampMode.toNat = 4 ∧ raw.cls.toNat ≠ 4) ∨
      (raw.cls.toNat = 2 ∧ 7 < raw.profile.toNat) ∨ (raw.cls.toNat = 4 ∧ 31 < raw.group.toNat)) ∧
    (∀ a, raw.validate = some a →
      a.cls.number = raw.cls.toNat ∧ a.code = raw.code ∧ a.lampMode.number = raw.lampMode.toNat ∧
      a.lampValue.number = raw.lampValue.toNat ∧ (∀ i, a.cls = .repeating i → i.1 = raw.profile.toNat) ∧
      (∀ g, a.cls = .select g → g.1 = raw.group.toNat) ∧ a.cls ≠ .toggle true)

/-- RELEASE, PIN, UNPIN, FIX and LAMP refused at the first position that fails: its status and offset are answered and
nothing else changes (R3, R24, R28, R29, R30, R32). -/
def Obligations.RangeRefusals : Prop :=
  ∀ (s : State) (p : Port) (f : Half) (n : Byte) (pre post : List KeyPos) (q : KeyPos),
    rangeOf f n = some (pre ++ q :: post) →
    let at_ : List Byte := [BitVec.ofNat 8 pre.length]
    ((∀ x ∈ pre, s.table[x].owner = some p ∧ s.table[x].hold ≠ .fixed) →
      (s.table[q].owner ≠ some p →
        (WorkingOn s p (.release f n) → OnlyAnswers (.release p) s p .notOwner 0x11 at_) ∧
        (WorkingOn s p (.pin f n) → OnlyAnswers (.pin p) s p .notOwner 0x12 at_) ∧
        (WorkingOn s p (.unpin f n) → OnlyAnswers (.unpin p) s p .notOwner 0x13 at_)) ∧
      (s.table[q].owner = some p → s.table[q].hold = .fixed →
        (WorkingOn s p (.release f n) → OnlyAnswers (.release p) s p .fixed 0x11 at_) ∧
        (WorkingOn s p (.pin f n) → OnlyAnswers (.pin p) s p .fixed 0x12 at_) ∧
        (WorkingOn s p (.unpin f n) → OnlyAnswers (.unpin p) s p .fixed 0x13 at_))) ∧
    ((∀ x ∈ pre, s.table[x].owner ≠ none ∧ ∀ g, s.table[x].cls ≠ .select g) → WorkingOn s 0 (.fix f n) →
      (s.table[q].owner = none → OnlyAnswers .fix s 0 .freePosition 0x14 at_) ∧
      (s.table[q].owner ≠ none → ∀ g, s.table[q].cls = .select g → OnlyAnswers .fix s 0 .badAttr 0x14 at_)) ∧
    (∀ v, WorkingOn s p (.lamp f n v) →
      (3 < v.toNat → OnlyAnswers (.lamp p) s p .badAttr 0x15 [0]) ∧
      (v.toNat ≤ 3 → (∀ x ∈ pre, s.table[x].owner = some p ∧ s.table[x].lampMode = .host) →
        (s.table[q].owner ≠ some p → OnlyAnswers (.lamp p) s p .notOwner 0x15 at_) ∧
        (s.table[q].owner = some p → s.table[q].lampMode ≠ .host → OnlyAnswers (.lamp p) s p .badAttr 0x15 at_)))

/-- CLAIM of a range whose positions all pass: each unowned position becomes the requester's with generation +1, hold
OPEN and the set; each position of its own is replaced with owner, generation and hold kept, a TOGGLE that stays
TOGGLE keeping its latch; the lamps follow. A replaced member leaves its group unless it stays in it, with DESELECTED
and LOST to the requester where it was selected, a position that newly names a group joins it without taking the
selection, and the counts follow, given the law of the groups; a range that touches no group changes no group and
offers no notice (R4, R10, R19 to R23, R97, R104). -/
def Obligations.ClaimTakesTheRange : Prop :=
  ∀ (s : State) (p : Port) (f : Half) (n : Byte) (raw : RawAttrs) (qs : List KeyPos) (a : AttrSet),
    WorkingOn s p (.claim f n raw) → rangeOf f n = some qs → raw.validate = some a →
    (∀ q ∈ qs, s.table[q].owner = none ∨ (s.table[q].owner = some p ∧ s.table[q].hold ≠ .fixed)) →
    (∀ g, a.cls = .select g → ∃ x, s.groups[g] = some x ∧ x.owner = p ∧
      x.count + (qs.filter (fun q => !(decide (s.table[q].owner = some p) && decide (s.table[q].cls = .select g)))).length
        ≤ 128) →
    ∃ t, exec (.claim p) s = .next t ∧ Answers s t p .ok 0x10 [0] ∧
      (∀ q ∈ qs, s.table[q].owner = none → t.table[q] =
        { owner := some p, gen := s.table[q].gen + 1, hold := .opened, cls := a.cls, code := a.code,
          lampMode := a.lampMode, lampValue := a.lampValue }) ∧
      (∀ q ∈ qs, s.table[q].owner = some p →
        t.table[q] =
          { owner := some p, gen := s.table[q].gen, hold := s.table[q].hold, cls := t.table[q].cls, code := a.code,
            lampMode := a.lampMode, lampValue := a.lampValue } ∧
        (∀ l m, s.table[q].cls = .toggle l → a.cls = .toggle m → t.table[q].cls = .toggle l) ∧
        ((∀ l m, ¬ (s.table[q].cls = .toggle l ∧ a.cls = .toggle m)) → t.table[q].cls = a.cls)) ∧
      (∀ q, q ∉ qs → t.table[q] = s.table[q]) ∧
      Redrawn s t qs ∧
      Offered s t p (qs.flatMap (fun q =>
        if s.table[q].owner = some p ∧ s.table[q].cls.group? ≠ a.cls.group? then s.deselectedReport q else [])) ∧
      (s.GroupLaw → Regrouped s t
        (fun g => qs.filter (fun q =>
          decide (s.table[q].owner = some p) && decide (s.table[q].cls = .select g) && decide (a.cls ≠ .select g)))
        (fun g => qs.filter (fun q =>
          decide (a.cls = .select g) && !(decide (s.table[q].owner = some p) && decide (s.table[q].cls = .select g))))) ∧
      (a.cls.group? = none → (∀ q ∈ qs, s.table[q].cls.group? = none) →
        t.groups = s.groups ∧ t.queues = s.queues ∧ t.noteLow = s.noteLow) ∧
      OnlyChanges s t [.table, .groups, .queues, .noteLow, .derived, .dirty, .ports]

/-- CLAIM refused: a bad set; a SELECT set for a FREE group or another host's; the first position that is another
host's, or the requester's FIXED, or for which the group has no room. The status and offset are answered and nothing
else changes (R3, R19). -/
def Obligations.ClaimRefusals : Prop :=
  ∀ (s : State) (p : Port) (f : Half) (n : Byte) (raw : RawAttrs) (pre post : List KeyPos) (q : KeyPos),
    WorkingOn s p (.claim f n raw) → rangeOf f n = some (pre ++ q :: post) →
    (raw.validate = none → OnlyAnswers (.claim p) s p .badAttr 0x10 [0]) ∧
    (∀ a, raw.validate = some a →
      (∀ g, a.cls = .select g → s.groups[g] = none → OnlyAnswers (.claim p) s p .noGroup 0x10 [0]) ∧
      (∀ g x, a.cls = .select g → s.groups[g] = some x → x.owner ≠ p →
        OnlyAnswers (.claim p) s p .groupOwner 0x10 [0]) ∧
      ((∀ x ∈ pre, s.table[x].owner = none ∨ (s.table[x].owner = some p ∧ s.table[x].hold ≠ .fixed)) →
        let joiners := fun (g : GroupId) => (pre.filter (fun y =>
          !(decide (s.table[y].owner = some p) && decide (s.table[y].cls = .select g)))).length
        (∀ g, a.cls = .select g → ∃ x, s.groups[g] = some x ∧ x.owner = p ∧ (x.count + joiners g ≤ 128 ∨ joiners g = 0)) →
        (∀ h, s.table[q].owner = some h → h ≠ p →
          OnlyAnswers (.claim p) s p .owned 0x10 [BitVec.ofNat 8 pre.length]) ∧
        (s.table[q].owner = some p → s.table[q].hold = .fixed →
          OnlyAnswers (.claim p) s p .fixed 0x10 [BitVec.ofNat 8 pre.length]) ∧
        (∀ g x, a.cls = .select g → s.groups[g] = some x → 128 < x.count + joiners g + 1 →
          (s.table[q].owner = none ∨
            (s.table[q].owner = some p ∧ s.table[q].hold ≠ .fixed ∧ s.table[q].cls ≠ .select g)) →
          OnlyAnswers (.claim p) s p .noRoom 0x10 [BitVec.ofNat 8 pre.length])))

/-- RELEASE of a range of the requester's non-FIXED positions: each takes the unbound form with generation +1, or,
where an ask was pending, the asker's set with generation +2, the asker ANSWERED GRANTED with it; opened presses are
withdrawn and their records stay; members leave their groups, askers' SELECT bindings join theirs, and the lamps
follow, given the law of the groups. The notices are, for each position in ascending order, WITHDRAWN, DESELECTED with
LOST and, for an ask, YIELDED, each where due (R4, R15, R24 to R27, R48, R70, R97, R104). That YIELDED carries the
generation before the release is log entry 11. -/
def Obligations.ReleaseUnbindsTheRange : Prop :=
  ∀ (s : State) (p : Port) (f : Half) (n : Byte) (qs : List KeyPos),
    WorkingOn s p (.release f n) → rangeOf f n = some qs → s.YieldLaw → s.HeldLaw → s.OpenLaw →
    (∀ r ∈ s.held, HeldForm r) →
    (∀ q ∈ qs, s.table[q].owner = some p ∧ s.table[q].hold ≠ .fixed) →
    ∃ t, exec (.release p) s = .next t ∧
      t.ports[p] = { s.ports[p] with state := .answered ⟨.ok, 0x11, [0]⟩ } ∧
      (∀ q ∈ qs, (∀ (i : AskId) (a : Ask), s.asks[i] = some a → a.pos ≠ q) →
        t.table[q] = Binding.unbound (s.table[q].gen + 1)) ∧
      (∀ q ∈ qs, ∀ (i : AskId) (a : Ask), s.asks[i] = some a → a.pos = q →
        t.table[q] =
          { owner := some a.asker, gen := s.table[q].gen + 2, hold := .opened, cls := a.set.cls, code := a.set.code,
            lampMode := a.set.lampMode, lampValue := a.set.lampValue } ∧
        t.asks[i] = none ∧
        t.ports[a.asker] =
          { s.ports[a.asker] with state := .answered ⟨.granted, 0x20, [s.table[q].gen + 2]⟩ }) ∧
      (∀ q, q ∉ qs → t.table[q] = s.table[q]) ∧
      (∀ (i : AskId) (a : Ask), s.asks[i] = some a → a.pos ∉ qs → t.asks[i] = some a) ∧
      t.held = s.held.map (fun r => if r.pos ∈ qs then r.afterWithdrawal else r) ∧
      Offered s t p (qs.flatMap (fun q => s.withdrawnReport q ++ s.deselectedReport q ++ s.yieldedReport q)) ∧
      (s.GroupLaw → Redrawn s t qs ∧ Regrouped s t
        (fun g => qs.filter (fun q => decide (s.table[q].cls = .select g))) (fun g => qs.filter (s.askedInto g))) ∧
      OnlyChanges s t [.table, .held, .groups, .asks, .queues, .noteLow, .derived, .dirty, .ports]

/-- PIN, UNPIN and FIX of a range whose positions pass: only the hold of each changes, to PINNED, OPEN and FIXED; PIN
and FIX end each ask pending on the range, its asker ANSWERED REFUSED or FIXED, and offer no notice (R16, R28 to R30,
R52). -/
def Obligations.HoldRequests : Prop :=
  ∀ (s : State) (p : Port) (f : Half) (n : Byte) (qs : List KeyPos), rangeOf f n = some qs → s.YieldLaw →
    let holds := fun (t : State) (h : Hold) =>
      ∀ q : KeyPos, t.table[q] = if q ∈ qs then { s.table[q] with hold := h } else s.table[q]
    let endsAsks := fun (t : State) (st : StatusCode) =>
      ∀ (i : AskId) (a : Ask), s.asks[i] = some a →
        (a.pos ∈ qs → t.asks[i] = none ∧
          t.ports[a.asker] = { s.ports[a.asker] with state := .answered ⟨st, 0x20, []⟩ }) ∧
        (a.pos ∉ qs → t.asks[i] = some a ∧ (a.asker = p ∨ t.ports[a.asker] = s.ports[a.asker]))
    ((∀ q ∈ qs, s.table[q].owner = some p ∧ s.table[q].hold ≠ .fixed) →
      (WorkingOn s p (.pin f n) → ∃ t, exec (.pin p) s = .next t ∧ holds t .pinned ∧ endsAsks t .refused ∧
        t.ports[p] = { s.ports[p] with state := .answered ⟨.ok, 0x12, [0]⟩ } ∧
        OnlyChanges s t [.table, .asks, .ports]) ∧
      (WorkingOn s p (.unpin f n) → ∃ t, exec (.unpin p) s = .next t ∧ holds t .opened ∧
        Answers s t p .ok 0x13 [0] ∧ OnlyChanges s t [.table, .ports])) ∧
    ((∀ q ∈ qs, s.table[q].owner ≠ none ∧ ∀ g, s.table[q].cls ≠ .select g) → p = 0 → WorkingOn s 0 (.fix f n) →
      ∃ t, exec .fix s = .next t ∧ holds t .fixed ∧ endsAsks t .fixed ∧
        t.ports[p] = { s.ports[p] with state := .answered ⟨.ok, 0x14, [0]⟩ } ∧
        OnlyChanges s t [.table, .asks, .ports])

/-- LAMP of a range of the requester's HOST-mode positions: each takes the lamp value and its lamp becomes it; nothing
but the values, the lamps, the dirty flags and the answer changes (R32, R125 to R128). -/
def Obligations.LampWritesTheRange : Prop :=
  ∀ (s : State) (p : Port) (f : Half) (n v : Byte) (qs : List KeyPos) (l : Lamp),
    WorkingOn s p (.lamp f n v) → rangeOf f n = some qs → [Lamp.off, .on, .slow, .fast][v.toNat]? = some l →
    (∀ q ∈ qs, s.table[q].owner = some p ∧ s.table[q].lampMode = .host) →
    ∃ t, exec (.lamp p) s = .next t ∧ Answers s t p .ok 0x15 [0] ∧
      (∀ q : KeyPos, t.table[q] = if q ∈ qs then { s.table[q] with lampValue := l } else s.table[q]) ∧
      (∀ q : KeyPos, t.derived[q] = if q ∈ qs then l else s.derived[q]) ∧
      (∀ b : Fin 128, t.dirty[b] = if b ∈ qs.map blockOf then dirtyFlag t.derived s.sent b else s.dirty[b]) ∧
      OnlyChanges s t [.table, .derived, .dirty, .ports]

/-- CLEAR TABLE: every owned binding, FIXED ones included, takes the unbound form with generation +1 and goes dark;
every ask ends RESET; every group is FREE; every held record stays, opened to no host. Each host is offered, for its
positions in ascending order, WITHDRAWN where a closing notice is owed and ASK_CLOSED with reason reset for an ask,
and nothing else (R34, R35, R53, R70, R107). -/
def Obligations.ClearTableUnbindsAll : Prop :=
  ∀ s : State, WorkingOn s 0 .clearTable → s.YieldLaw → s.HeldLaw → s.OpenLaw → (∀ r ∈ s.held, HeldForm r) →
    ∃ t, exec .clearTable s = .next t ∧
      t.ports[0] = { s.ports[0] with state := .answered ⟨.ok, 0x16, []⟩ } ∧
      (∀ q : KeyPos, s.table[q].owner = none → t.table[q] = s.table[q] ∧ t.derived[q] = s.derived[q]) ∧
      (∀ q : KeyPos, s.table[q].owner ≠ none →
        t.table[q] = Binding.unbound (s.table[q].gen + 1) ∧ t.derived[q] = .off) ∧
      (∀ g : GroupId, t.groups[g] = none) ∧
      (∀ i : AskId, t.asks[i] = none) ∧
      (∀ (i : AskId) (a : Ask), s.asks[i] = some a →
        t.ports[a.asker] = { s.ports[a.asker] with state := .answered ⟨.reset, 0x20, []⟩ }) ∧
      t.held = s.held.map HeldRecord.afterWithdrawal ∧
      AllOffered s t (fun h => (List.finRange 1024).flatMap (fun q =>
        if s.table[q].owner = some h then s.withdrawnReport q ++ s.resetReport q else [])) ∧
      OnlyChanges s t [.table, .held, .groups, .asks, .queues, .noteLow, .derived, .dirty, .ports]

/-- LEAVE: the requester's non-FIXED bindings are released silently, asks on them granted; its groups become FREE, its
queue is emptied and its NOTE line released, it is PRESENT, and its settings are kept; no other queue changes (R36,
R37, R48, R123). -/
def Obligations.LeaveReleasesSilently : Prop :=
  ∀ (s : State) (p : Port), WorkingOn s p .leave → s.YieldLaw → s.HeldLaw → s.OpenLaw → (∀ r ∈ s.held, HeldForm r) →
    ∃ t, exec (.leave p) s = .next t ∧
      (t.ports[p].state = .answered ⟨.ok, 0x17, []⟩ ∧ t.ports[p].lineMode = s.ports[p].lineMode ∧
        t.ports[p].lapseTime = s.ports[p].lapseTime) ∧
      (∀ q : KeyPos, s.table[q].owner ≠ some p ∨ s.table[q].hold = .fixed → t.table[q] = s.table[q]) ∧
      (∀ q : KeyPos, s.table[q].owner = some p → s.table[q].hold ≠ .fixed →
        (∀ (i : AskId) (a : Ask), s.asks[i] = some a → a.pos ≠ q) →
        t.table[q] = Binding.unbound (s.table[q].gen + 1)) ∧
      (∀ (i : AskId) (a : Ask), s.asks[i] = some a → a.holder = p →
        t.table[a.pos] =
          { owner := some a.asker, gen := s.table[a.pos].gen + 2, hold := .opened, cls := a.set.cls,
            code := a.set.code, lampMode := a.set.lampMode, lampValue := a.set.lampValue } ∧
        t.asks[i] = none ∧
        t.ports[a.asker] =
          { s.ports[a.asker] with state := .answered ⟨.granted, 0x20, [s.table[a.pos].gen + 2]⟩ }) ∧
      (∀ (i : AskId) (a : Ask), s.asks[i] = some a → a.holder ≠ p → t.asks[i] = some a) ∧
      (∀ (g : GroupId) (x : SelGroup), s.groups[g] = some x → x.owner = p → t.groups[g] = none) ∧
      t.queues = upd s.queues p [] ∧ t.noteLow = upd s.noteLow p false ∧
      t.presence = upd s.presence p .present ∧
      t.held = s.held.map (fun r =>
        if s.table[r.pos].owner = some p ∧ s.table[r.pos].hold ≠ .fixed then r.afterWithdrawal else r) ∧
      OnlyChanges s t [.table, .held, .groups, .asks, .presence, .queues, .noteLow, .derived, .dirty, .ports]

/-- READ BINDING, READ HELD, READ PANEL and READ DESK answer OK with the record as it stands in its layout, or
BAD_POSITION and BAD_ATTR for an operand out of range, and change nothing but their port (R1, R13, R79, R168, R184,
R192). -/
def Obligations.ReadsChangeNothing : Prop :=
  ∀ (s : State) (p : Port),
    (∀ w : Half, WorkingOn s p (.readBinding w) →
      (1023 < w.toNat → OnlyAnswers (.readBinding p) s p .badPosition 0x18 []) ∧
      (∀ q : KeyPos, w.toNat = q.1 →
        let b := s.table[q]
        OnlyAnswers (.readBinding p) s p .ok 0x18
          [match b.owner with | some h => BitVec.ofNat 8 h.1 | none => 0xFF, b.gen, BitVec.ofNat 8 b.hold.number,
            BitVec.ofNat 8 b.cls.number, b.code.extractLsb' 8 8, b.code.extractLsb' 0 8,
            match b.cls with | .repeating i => BitVec.ofNat 8 i.1 | _ => 0xFF,
            match b.cls with | .select g => BitVec.ofNat 8 g.1 | _ => 0xFF,
            BitVec.ofNat 8 b.lampMode.number, BitVec.ofNat 8 b.lampValue.number,
            match b.cls with | .toggle l => BitVec.ofNat 8 l.toNat | _ => 0xFF])) ∧
    (WorkingOn s p .readHeld →
      OnlyAnswers (.readHeld p) s p .ok 0x60 (BitVec.ofNat 8 s.held.length :: s.held.flatMap (fun r =>
        let due : Time := match r.phase with | .held => 0 | .delay d => d | .repeating d _ => d
        let period : Half := match r.phase with | .repeating _ k => BitVec.ofNat 16 k | _ => 0
        let phase := match r.phase with | .held => 0 | .delay _ => 1 | .repeating _ _ => 2
        [BitVec.ofNat 8 (128 * r.resync.toNat + 64 * r.closingDue.toNat + 16 * phase + r.pos.1 / 256),
          BitVec.ofNat 8 (r.pos.1 % 256),
          match r.openedTo with | some o => BitVec.ofNat 8 o.host.1 | none => 0xFF,
          match r.openedTo with | some o => o.gen | none => 0,
          r.pressedAt.extractLsb' 8 8, r.pressedAt.extractLsb' 0 8, due.extractLsb' 8 8, due.extractLsb' 0 8,
          period.extractLsb' 8 8, period.extractLsb' 0 8, BitVec.ofNat 8 (r.repeatCount / 256 % 256),
          BitVec.ofNat 8 (r.repeatCount % 256)]))) ∧
    (∀ b : Byte, WorkingOn s p (.readPanel b) →
      (7 < b.toNat → OnlyAnswers (.readPanel p) s p .badAttr 0x61 []) ∧
      (∀ n : LinkId, b.toNat = n.1 →
        let l := s.links[n]
        let failed := BitVec.ofNat 16 l.failedCount
        OnlyAnswers (.readPanel p) s p .ok 0x61
          [BitVec.ofNat 8 l.session.number, BitVec.ofNat 8 (s.mask.getLsbD n.1).toNat,
            match l.session.identity with | some i => i.panelType | none => 0,
            match l.session.identity with | some i => BitVec.ofNat 8 i.keyCount | none => 0,
            BitVec.ofNat 8 l.failures, failed.extractLsb' 8 8, failed.extractLsb' 0 8, BitVec.ofNat 8 l.lostCount])) ∧
    (WorkingOn s p .readDesk →
      OnlyAnswers (.readDesk p) s p .ok 0x71
        [0x41, s.deskTime.extractLsb' 8 8, s.deskTime.extractLsb' 0 8, s.mask, s.pollInterval, s.yieldWait])

/-! ## Yield unit -/

/-- YIELD ASK refused: the first of checks 1 to 9 that applies decides the answer, and nothing else changes (R42). -/
def Obligations.YieldAskRefusals : Prop :=
  ∀ (s : State) (p : Port) (w : Half) (raw : RawAttrs), WorkingOn s p (.yieldAsk w raw) →
    (∀ (i : AskId) (a : Ask), s.asks[i] = some a → a.asker ≠ p) →
    let refuses := fun (st : StatusCode) => OnlyAnswers (.yieldAsk p) s p st 0x20 []
    (1023 < w.toNat → refuses .badPosition) ∧
    (∀ q : KeyPos, w.toNat = q.1 →
      (raw.validate = none → refuses .badAttr) ∧
      (∀ a, raw.validate = some a →
        (∀ g, a.cls = .select g → s.groups[g] = none → refuses .noGroup) ∧
        (∀ g x, a.cls = .select g → s.groups[g] = some x → x.owner ≠ p → refuses .groupOwner) ∧
        ((∀ g, a.cls = .select g → ∃ x, s.groups[g] = some x ∧ x.owner = p) →
          (s.table[q].owner = some p → refuses .self) ∧
          (s.table[q].owner ≠ some p →
            (s.table[q].hold = .fixed → refuses .fixed) ∧
            (s.table[q].hold = .pinned → refuses .pinned) ∧
            (s.table[q].hold = .opened →
              (∀ (i : AskId) (b : Ask), s.asks[i] = some b → b.pos = q → refuses .asked) ∧
              ((∀ (i : AskId) (b : Ask), s.asks[i] = some b → b.pos ≠ q) →
                ∀ g x, a.cls = .select g → s.groups[g] = some x → 128 ≤ x.count → refuses .noRoom))))))

/-- YIELD ASK that passes checks 1 to 9. Of an unowned position: carried out as a claim, GRANTED with the new
generation and no notice. Of a LAPSED owner's: granted at once, the owner's notices WITHDRAWN, DESELECTED, YIELDED
where due. Otherwise an entry under the lowest free id with its deadline, YIELD_ASKED to the owner, the port still
WORKING (R43 to R47, R56). -/
def Obligations.YieldAskOutcomes : Prop :=
  ∀ (s : State) (p : Port) (w : Half) (raw : RawAttrs) (q : KeyPos) (a : AttrSet),
    WorkingOn s p (.yieldAsk w raw) → w.toNat = q.1 → raw.validate = some a →
    (∀ (i : AskId) (b : Ask), s.asks[i] = some b → b.asker ≠ p ∧ b.pos ≠ q) →
    (∀ g, a.cls = .select g → ∃ x, s.groups[g] = some x ∧ x.owner = p ∧ x.count < 128) →
    s.table[q].owner ≠ some p → s.table[q].hold = .opened →
    (s.table[q].owner = none → ∃ t, exec (.yieldAsk p) s = .next t ∧
      Answers s t p .granted 0x20 [s.table[q].gen + 1] ∧
      t.table = upd s.table q (s.table[q].take p a) ∧ Redrawn s t [q] ∧
      OnlyChanges s t [.table, .groups, .derived, .dirty, .ports]) ∧
    (∀ h, s.table[q].owner = some h → s.presence[h] = .lapsed → s.HeldLaw → s.OpenLaw → (∀ r ∈ s.held, HeldForm r) →
      ∃ t, exec (.yieldAsk p) s = .next t ∧
        Answers s t p .granted 0x20 [s.table[q].gen + 1] ∧
        t.table = upd s.table q (s.table[q].take p a) ∧
        t.held = s.held.map (fun r => if r.pos = q then r.afterWithdrawal else r) ∧
        Offered s t h (s.withdrawnReport q ++ s.deselectedReport q ++ [s.noticeOf .yielded q p.1 false false]) ∧
        Redrawn s t [q] ∧
        OnlyChanges s t [.table, .held, .groups, .queues, .noteLow, .derived, .dirty, .ports]) ∧
    (∀ h (i : AskId), s.table[q].owner = some h → s.presence[h] = .present →
      s.asks[i] = none → (∀ j : AskId, j < i → s.asks[j] ≠ none) →
      ∃ t, exec (.yieldAsk p) s = .next t ∧
        (∃ d, t.asks = upd s.asks i (some { asker := p, holder := h, pos := q, set := a, deadline := d }) ∧
          d.toNat = (s.deskTime.toNat + 100 * s.yieldWait.toNat) % 65536) ∧
        Offered s t h [s.noticeOf .yieldAsked q (256 * i.1 + p.1) false false] ∧
        OnlyChanges s t [.asks, .queues, .noteLow])

/-- YIELD REPLY: BAD_ATTR for a decision above 1; STALE for an id above 3, a free id, or another holder's ask; on
refuse the entry goes and the asker is ANSWERED REFUSED without a notice; on grant the position passes to the asker as
R47 gives, the holder's notices in the order WITHDRAWN, DESELECTED, YIELDED; the replier is answered OK (R47, R49). -/
def Obligations.YieldReplyEndsTheAsk : Prop :=
  ∀ (s : State) (p : Port) (id d : Byte), WorkingOn s p (.yieldReply id d) →
    (1 < d.toNat → OnlyAnswers (.yieldReply p) s p .badAttr 0x21 []) ∧
    (d.toNat ≤ 1 → (∀ (i : AskId) (a : Ask), id.toNat = i.1 → s.asks[i] = some a → a.holder ≠ p) →
      OnlyAnswers (.yieldReply p) s p .stale 0x21 []) ∧
    (∀ (i : AskId) (a : Ask) (w : Half) (raw : RawAttrs),
      id.toNat = i.1 → s.asks[i] = some a → a.holder = p → WorkingOn s a.asker (.yieldAsk w raw) →
      let answered := fun (t : State) (st : StatusCode) (data : List Byte) =>
        t.ports = upd (upd s.ports a.asker { s.ports[a.asker] with state := .answered ⟨st, 0x20, data⟩ }) p
          { s.ports[p] with state := .answered ⟨.ok, 0x21, []⟩ }
      (d = 0 → ∃ t, exec (.yieldReply p) s = .next t ∧ t.asks = upd s.asks i none ∧ answered t .refused [] ∧
        OnlyChanges s t [.asks, .ports]) ∧
      (d = 1 → s.table[a.pos].owner = some p → s.HeldLaw → s.OpenLaw → (∀ r ∈ s.held, HeldForm r) →
        ∃ t, exec (.yieldReply p) s = .next t ∧ t.asks = upd s.asks i none ∧
          answered t .granted [s.table[a.pos].gen + 1] ∧
          t.table = upd s.table a.pos (s.table[a.pos].take a.asker a.set) ∧
          t.held = s.held.map (fun r => if r.pos = a.pos then r.afterWithdrawal else r) ∧
          Offered s t p (s.withdrawnReport a.pos ++ s.deselectedReport a.pos
            ++ [s.noticeOf .yielded a.pos a.asker.1 false false]) ∧
          Redrawn s t [a.pos] ∧
          OnlyChanges s t [.asks, .ports, .table, .held, .groups, .queues, .noteLow, .derived, .dirty]))

/-- ASK_DEADLINE: an ask whose deadline desk time has reached ends: the entry removed, the asker ANSWERED TIMEOUT,
ASK_CLOSED with reason timed out to the holder, the binding unchanged; before its deadline nothing happens (R50, R56).
What counts as reached is log entry 3. -/
def Obligations.AskTimesOut : Prop :=
  ∀ (s : State) (i : AskId) (a : Ask) (w : Half) (raw : RawAttrs), s.asks[i] = some a →
    WorkingOn s a.asker (.yieldAsk w raw) →
    (s.deskTime = a.deadline ∨ 25500 < (a.deadline - s.deskTime).toNat →
      ∃ t, exec (.askDeadline i) s = .next t ∧ t.asks = upd s.asks i none ∧
        Answers s t a.asker .timeout 0x20 [] ∧
        Offered s t a.holder [s.noticeOf .askClosed a.pos (256 * i.1 + 2) false false] ∧
        OnlyChanges s t [.asks, .ports, .queues, .noteLow]) ∧
    (s.deskTime ≠ a.deadline → (a.deadline - s.deskTime).toNat ≤ 25500 → ChangesNothing (.askDeadline i) s)

/-! ## Group unit -/

/-- OPEN GROUP: BAD_ATTR for a group above 31 or a mode above 1; a FREE group opens empty for the requester; the
requester's own takes the mode and keeps the rest; another host's is answered GROUP_OWNER (R98). -/
def Obligations.OpenGroupByState : Prop :=
  ∀ (s : State) (p : Port) (g m : Byte), WorkingOn s p (.openGroup g m) →
    (31 < g.toNat ∨ 1 < m.toNat → OnlyAnswers (.openGroup p) s p .badAttr 0x30 []) ∧
    (∀ (i : GroupId) (mode : GroupMode), g.toNat = i.1 → [GroupMode.strict, .loose][m.toNat]? = some mode →
      let opens := fun (x : SelGroup) => ∃ t, exec (.openGroup p) s = .next t ∧ Answers s t p .ok 0x30 [] ∧
        t.groups = upd s.groups i (some x) ∧ OnlyChanges s t [.groups, .ports]
      (s.groups[i] = none → opens { owner := p, mode := mode, selected := none, count := 0 }) ∧
      (∀ x, s.groups[i] = some x → x.owner = p → opens { x with mode := mode }) ∧
      (∀ x, s.groups[i] = some x → x.owner ≠ p → OnlyAnswers (.openGroup p) s p .groupOwner 0x30 []))

/-- CLOSE GROUP and CLEAR SELECTION: the checks in their order; a group without members becomes FREE; a selection
becomes none with no notice and the lamp of the position that was selected follows (R99, R100). -/
def Obligations.CloseGroupAndClearSelection : Prop :=
  ∀ (s : State) (p : Port) (g : Byte),
    (WorkingOn s p (.closeGroup g) →
      (31 < g.toNat → OnlyAnswers (.closeGroup p) s p .badAttr 0x31 []) ∧
      (∀ i : GroupId, g.toNat = i.1 →
        (s.groups[i] = none → OnlyAnswers (.closeGroup p) s p .noGroup 0x31 []) ∧
        (∀ x, s.groups[i] = some x →
          (x.owner ≠ p → OnlyAnswers (.closeGroup p) s p .groupOwner 0x31 []) ∧
          (x.owner = p → 0 < x.count → OnlyAnswers (.closeGroup p) s p .groupBusy 0x31 []) ∧
          (x.owner = p → x.count = 0 → ∃ t, exec (.closeGroup p) s = .next t ∧ Answers s t p .ok 0x31 [] ∧
            t.groups = upd s.groups i none ∧ OnlyChanges s t [.groups, .ports])))) ∧
    (WorkingOn s p (.clearSelection g) →
      (31 < g.toNat → OnlyAnswers (.clearSelection p) s p .badAttr 0x32 []) ∧
      (∀ i : GroupId, g.toNat = i.1 →
        (s.groups[i] = none → OnlyAnswers (.clearSelection p) s p .noGroup 0x32 []) ∧
        (∀ x, s.groups[i] = some x →
          (x.owner ≠ p → OnlyAnswers (.clearSelection p) s p .groupOwner 0x32 []) ∧
          (x.owner = p → x.selected = none → OnlyAnswers (.clearSelection p) s p .ok 0x32 []) ∧
          (x.owner = p → ∀ q, x.selected = some q →
            ∃ t, exec (.clearSelection p) s = .next t ∧ Answers s t p .ok 0x32 [] ∧
              t.groups = upd s.groups i (some { x with selected := none }) ∧ Redrawn s t [q] ∧
              OnlyChanges s t [.groups, .derived, .dirty, .ports]))))

/-- READ GROUP, whole: BAD_ATTR above 31; otherwise OK on any port with state, owner, mode, selected position and
count, the absent fields as 0xFF and 0xFFFF; nothing changes, and the answer stands whatever is taken after it (R101).
-/
def Obligations.ReadGroupAnswers : Prop :=
  ∀ (s : State) (p : Port) (g : Byte), WorkingOn s p (.readGroup g) →
    (31 < g.toNat → OnlyAnswers (.readGroup p) s p .badAttr 0x33 []) ∧
    (∀ i : GroupId, g.toNat = i.1 →
      (s.groups[i] = none → OnlyAnswers (.readGroup p) s p .ok 0x33 [0, 0xFF, 0xFF, 0xFF, 0xFF, 0]) ∧
      (∀ x, s.groups[i] = some x →
        OnlyAnswers (.readGroup p) s p .ok 0x33
          ([1, BitVec.ofNat 8 x.owner.1, match x.mode with | .strict => 0 | .loose => 1] ++
            (match x.selected with
              | some q => [BitVec.ofNat 8 (q.1 / 256), BitVec.ofNat 8 q.1]
              | none => [0xFF, 0xFF]) ++
            [BitVec.ofNat 8 x.count]))) ∧
    (∀ (c : Instr) (t u : State), exec (.readGroup p) s = .next t → c ≠ .answerConsumed p → c ≠ .powerOn →
      exec c t = .next u → u.ports[p].state = t.ports[p].state)

/-! ## Repeat timer -/

/-- SET PROFILE, whole: SUPERVISOR on ports 1 to 3 at the port; BAD_ATTR in its six cases with no profile changed;
otherwise the four values of the named profile are replaced together, answered OK, and nothing else changes (R85). -/
def Obligations.SetProfileReplacesTheFour : Prop :=
  (∀ (s : State) (p : Port) (x : Transaction) (n d e t f : Byte), p ≠ 0 → s.ports[p].txn = some x →
    x.reading = .unread → s.ports[p].state = .idle →
    ∃ u, exec (.submit p [0x40, n, d, e, t, f]) s = .next u ∧
      u.ports[p].state = .answered ⟨.supervisor, 0x40, []⟩ ∧ OnlyChanges s u [.ports]) ∧
  (∀ (s : State) (n d e t f : Byte), WorkingOn s 0 (.setProfile n d e t f) →
    ((7 < n.toNat ∨ d = 0 ∨ e = 0 ∨ 15 < t.toNat ∨ f = 0 ∨ e.toNat < f.toNat) →
      OnlyAnswers .setProfile s 0 .badAttr 0x40 []) ∧
    (∀ i : ProfileId, n.toNat = i.1 → d ≠ 0 → e ≠ 0 → t.toNat ≤ 15 → f ≠ 0 → f.toNat ≤ e.toNat →
      ∃ u, exec .setProfile s = .next u ∧ Answers s u 0 .ok 0x40 [] ∧
        u.profiles = upd s.profiles i { delay := d, period := e, step := t, floor := f } ∧
        OnlyChanges s u [.profiles, .ports]))

/-- READ PROFILE, whole: BAD_ATTR above 7; otherwise OK on any port with the four stored values as they stand; nothing
changes, and a SET PROFILE taken after it does not alter the answer (R86). -/
def Obligations.ReadProfileAnswers : Prop :=
  ∀ (s : State) (p : Port) (n : Byte), WorkingOn s p (.readProfile n) →
    (7 < n.toNat → OnlyAnswers (.readProfile p) s p .badAttr 0x41 []) ∧
    (∀ i : ProfileId, n.toNat = i.1 →
      OnlyAnswers (.readProfile p) s p .ok 0x41
        [s.profiles[i].delay, s.profiles[i].period, s.profiles[i].step, s.profiles[i].floor]) ∧
    (∀ t u : State, exec (.readProfile p) s = .next t → exec .setProfile t = .next u →
      u.ports[p].state = t.ports[p].state)

/-- REPEAT_DUE at a due that desk time has reached: on a REPEATING binding with the record opened, the count rises and
stays at 65535, REPEAT is offered with it, the next due is this due plus the period in force, and the period is halved
after it at each whole multiple of the step, not below the floor; otherwise the record takes no further due (R88,
R89). What counts as reached is log entry 3. -/
def Obligations.RepeatDueRepeats : Prop :=
  ∀ (s : State) (q : KeyPos) (r : HeldRecord) (due : Time), s.HeldLaw → r ∈ s.held → r.pos = q →
    (s.deskTime = due ∨ 2550 < (due - s.deskTime).toNat) → (r.phase = .delay due ∨ ∃ k, r.phase = .repeating due k) →
    (∀ (i : ProfileId) (o : Opened) (period : Nat), s.table[q].cls = .repeating i → r.openedTo = some o →
      (r.phase = .delay due → period = 10 * s.profiles[i].period.toNat) →
      (∀ k, r.phase = .repeating due k → period = k) →
      let count := min (r.repeatCount + 1) (max 65535 r.repeatCount)
      let step := s.profiles[i].step.toNat
      let halved := if 0 < step ∧ count % step = 0 then max (10 * s.profiles[i].floor.toNat) (period / 2) else period
      ∃ t, exec (.repeatDue q) s = .next t ∧
        (∃ next : Time, next.toNat = (due.toNat + period) % 65536 ∧
          t.held = s.held.map (fun x =>
            if x.pos = q then { r with repeatCount := count, phase := .repeating next halved } else x)) ∧
        Offered s t o.host [s.noticeOf .repeated q count r.resync false] ∧
        OnlyChanges s t [.held, .queues, .noteLow]) ∧
    (((∀ i, s.table[q].cls ≠ .repeating i) ∨ r.openedTo = none) →
      ∃ t, exec (.repeatDue q) s = .next t ∧
        t.held = s.held.map (fun x => if x.pos = q then { r with phase := .held } else x) ∧
        OnlyChanges s t [.held])

/-! ## Event engine -/

/-- PRESS_EDGE, the oldest edge handed over by a link in UP, for a position with no record. With room a record is made
behind the newest: unopened at an unbound position, without a notice; opened for MOMENTARY, PRESS_ONLY, REPEATING with
PRESS and for TOGGLE with its latch turned over and TOGGLED. With a full set BLOCKED goes to the owner. A key already
held changes nothing, and an edge whose session has since left UP is discarded, UP again or not (R63 to R67, R87, R95,
R149, R158). -/
def Obligations.PressOpensARecord : Prop :=
  ∀ (s : State) (q : KeyPos) (live : Bool) (rest : List HandedEdge),
    s.links[panelOf q].edges = ⟨true, q, live⟩ :: rest →
    let took := fun (t : State) => t.links = upd s.links (panelOf q) { s.links[panelOf q] with edges := rest }
    let made : HeldRecord :=
      { pos := q, pressedAt := s.deskTime, openedTo := none, closingDue := false, phase := .held, repeatCount := 0,
        resync := false }
    let discards := ∃ t, exec (.pressEdge q) s = .next t ∧ took t ∧ OnlyChanges s t [.links]
    ((live = false ∨ ∀ i last poll, s.links[panelOf q].session ≠ .up i last poll) → discards) ∧
    (∀ i last poll, live = true → s.links[panelOf q].session = .up i last poll →
      ((∃ r ∈ s.held, r.pos = q) → discards) ∧
      ((∀ r ∈ s.held, r.pos ≠ q) →
        (16 ≤ s.held.length →
          (s.table[q].owner = none → discards) ∧
          (∀ h, s.table[q].owner = some h → ∃ t, exec (.pressEdge q) s = .next t ∧ took t ∧
            Offered s t h [s.noticeOf .blocked q 0 false false] ∧ OnlyChanges s t [.links, .queues, .noteLow])) ∧
        (s.held.length < 16 →
          (s.table[q].owner = none → ∃ t, exec (.pressEdge q) s = .next t ∧ took t ∧
            t.held = s.held ++ [made] ∧ Redrawn s t [q] ∧ OnlyChanges s t [.links, .held, .derived, .dirty]) ∧
          (∀ h, s.table[q].owner = some h →
            let opened := fun (due : Bool) (ph : Phase) =>
              { made with openedTo := some ⟨h, s.table[q].gen⟩, closingDue := due, phase := ph }
            let presses := fun (due : Bool) (ph : Phase) => ∃ t, exec (.pressEdge q) s = .next t ∧ took t ∧
              t.held = s.held ++ [opened due ph] ∧ Offered s t h [s.noticeOf .press q 0 false false] ∧
              Redrawn s t [q] ∧ OnlyChanges s t [.links, .held, .queues, .noteLow, .derived, .dirty]
            (s.table[q].cls = .momentary → presses true .held) ∧
            (s.table[q].cls = .pressOnly → presses false .held) ∧
            (∀ j : ProfileId, s.table[q].cls = .repeating j →
              ∃ due : Time, due.toNat = (s.deskTime.toNat + 10 * s.profiles[j].delay.toNat) % 65536 ∧
                presses true (.delay due)) ∧
            (∀ l, s.table[q].cls = .toggle l → ∃ t, exec (.pressEdge q) s = .next t ∧ took t ∧
              t.table = upd s.table q { s.table[q] with cls := .toggle (!l) } ∧
              t.held = s.held ++ [opened false .held] ∧
              Offered s t h [s.noticeOf .toggled q (!l).toNat false false] ∧ Redrawn s t [q] ∧
              OnlyChanges s t [.links, .table, .held, .queues, .noteLow, .derived, .dirty])))))

/-- The group rule at a press of a SELECT key given a record: the first selection opens it with SELECTED; a change
offers DESELECTED for the old position, then SELECTED; the selected key pressed again changes nothing in STRICT and
deselects in LOOSE, and its record is not opened (R68, R102, R103). -/
def Obligations.PressAppliesTheGroupRule : Prop :=
  ∀ (s : State) (q : KeyPos) (rest : List HandedEdge) (h : Port) (g : GroupId) (x : SelGroup) (i : Identity)
    (last : OrderKind) (poll : Option Time),
    s.links[panelOf q].edges = ⟨true, q, true⟩ :: rest → s.links[panelOf q].session = .up i last poll →
    (∀ r ∈ s.held, r.pos ≠ q) → s.held.length < 16 → s.table[q].owner = some h → s.table[q].cls = .select g →
    s.groups[g] = some x →
    let made : HeldRecord :=
      { pos := q, pressedAt := s.deskTime, openedTo := none, closingDue := false, phase := .held, repeatCount := 0,
        resync := false }
    let opened : HeldRecord := { made with openedTo := some ⟨h, s.table[q].gen⟩ }
    let parts : List Part := [.links, .held, .groups, .queues, .noteLow, .derived, .dirty]
    let goes := fun (sel : Option KeyPos) (rec : HeldRecord) (l : List Report) (lamps : List KeyPos) =>
      ∃ t, exec (.pressEdge q) s = .next t ∧
        t.links = upd s.links (panelOf q) { s.links[panelOf q] with edges := rest } ∧
        t.groups = upd s.groups g (some { x with selected := sel }) ∧ t.held = s.held ++ [rec] ∧
        Offered s t h l ∧ Redrawn s t lamps ∧ OnlyChanges s t parts
    (x.selected = none → goes (some q) opened [s.noticeOf .selected q g.1 false false] [q]) ∧
    (∀ old, x.selected = some old → old ≠ q →
      goes (some q) opened
        [s.noticeOf .deselected old g.1 false false, s.noticeOf .selected q g.1 false false] [old, q]) ∧
    (x.selected = some q → x.mode = .loose → goes none made [s.noticeOf .deselected q g.1 false false] [q]) ∧
    (x.selected = some q → x.mode = .strict → ∃ t, exec (.pressEdge q) s = .next t ∧
      t.links = upd s.links (panelOf q) { s.links[panelOf q] with edges := rest } ∧ t.held = s.held ++ [made] ∧
      Redrawn s t [q] ∧ OnlyChanges s t [.links, .held, .derived, .dirty])

/-- RELEASE_EDGE, the oldest edge handed over by a link in UP: the record of the position is removed, and where it is
opened with closing due RELEASE goes to its host with the repeat count, RESYNC where the record has it; without a
record, and for an edge whose session has since left UP, UP again or not, nothing changes but the edge (R63, R71, R73,
R149, R158). -/
def Obligations.ReleaseClosesTheRecord : Prop :=
  ∀ (s : State) (q : KeyPos) (live : Bool) (rest : List HandedEdge),
    s.links[panelOf q].edges = ⟨false, q, live⟩ :: rest → s.HeldLaw →
    let took := fun (t : State) => t.links = upd s.links (panelOf q) { s.links[panelOf q] with edges := rest }
    let discards := ∃ t, exec (.releaseEdge q) s = .next t ∧ took t ∧ OnlyChanges s t [.links]
    let removed := s.held.filter (fun x => decide (x.pos ≠ q))
    ((live = false ∨ ∀ i last poll, s.links[panelOf q].session ≠ .up i last poll) → discards) ∧
    (∀ i last poll, live = true → s.links[panelOf q].session = .up i last poll →
      ((∀ r ∈ s.held, r.pos ≠ q) → discards) ∧
      (∀ r ∈ s.held, r.pos = q →
        (∀ o, r.openedTo = some o → r.closingDue = true → ∃ t, exec (.releaseEdge q) s = .next t ∧ took t ∧
          t.held = removed ∧ Offered s t o.host [s.noticeOf .release q r.repeatCount r.resync false] ∧
          Redrawn s t [q] ∧ OnlyChanges s t [.links, .held, .queues, .noteLow, .derived, .dirty]) ∧
        (r.openedTo = none ∨ r.closingDue = false → ∃ t, exec (.releaseEdge q) s = .next t ∧ took t ∧
          t.held = removed ∧ Redrawn s t [q] ∧ OnlyChanges s t [.links, .held, .derived, .dirty])))

/-! ## Desk time base and links -/

/-- SET LINKS: BAD_ATTR for a poll interval outside 2 to 20 or a yield wait of 0; otherwise the three settings are
written, each link whose place changed is handed it, and the answer OK is made at once where no place changed and
waits otherwise (R166, R183). -/
def Obligations.SetLinksHandsTheChanges : Prop :=
  ∀ (s : State) (m e w : Byte), WorkingOn s 0 (.setLinks m e w) → (∀ n : LinkId, s.links[n].handed = none) →
    ((e.toNat < 2 ∨ 20 < e.toNat ∨ w = 0) → OnlyAnswers .setLinks s 0 .badAttr 0x70 []) ∧
    (2 ≤ e.toNat → e.toNat ≤ 20 → w ≠ 0 → ∃ t, exec .setLinks s = .next t ∧
      t.mask = m ∧ t.pollInterval = e ∧ t.yieldWait = w ∧
      (∀ n : LinkId, t.links[n] = { s.links[n] with
        handed := if m.getLsbD n.1 = s.mask.getLsbD n.1 then none else some (m.getLsbD n.1) }) ∧
      (m = s.mask → Answers s t 0 .ok 0x70 []) ∧ (m ≠ s.mask → t.ports = s.ports) ∧
      OnlyChanges s t [.mask, .pollInterval, .yieldWait, .links, .ports])

/-- LINK_ENABLE of a link in OFF begins PROBING with an IDENTIFY and its timer; of another state only takes the
change. LINK_DISABLE abandons the exchange uncounted, holds LCKn low and releases LDAn, and ends a session: the
panel's held records removed, RELEASE with LOST for each owed a closing notice, oldest first, then PANEL_DOWN to all
four queues, given at most one record a key, and no edge handed over live any more; the last change taken answers SET
LINKS OK (R63, R78, R149, R155, R163, R165, R166). -/
def Obligations.LinksAreEnabledAndDisabled : Prop :=
  ∀ (s : State) (n : LinkId) (m e w : Byte), WorkingOn s 0 (.setLinks m e w) →
    let settles := fun (t : State) =>
      ((∀ k : LinkId, k ≠ n → s.links[k].handed = none) → Answers s t 0 .ok 0x70 []) ∧
      ((∃ k : LinkId, k ≠ n ∧ s.links[k].handed ≠ none) → t.ports = s.ports)
    (s.links[n].handed = some true →
      (s.links[n].session = .off → ∃ t, exec (.linkEnable n) s = .next t ∧ settles t ∧
        (∃ d : Time, d.toNat = (s.deskTime.toNat + 250) % 65536 ∧
          t.links = upd s.links n
            { s.links[n] with
              session := .probing d, inFlight := some ⟨.identify, s.links[n].failures + 1⟩, lck := .clocking
              handed := none }) ∧
        OnlyChanges s t [.links, .ports]) ∧
      (s.links[n].session ≠ .off → ∃ t, exec (.linkEnable n) s = .next t ∧ settles t ∧
        t.links = upd s.links n { s.links[n] with handed := none } ∧ OnlyChanges s t [.links, .ports])) ∧
    (s.links[n].handed = some false →
      let off : LinkEngine :=
        { s.links[n] with session := .off, failures := 0, inFlight := none, lck := .low, handed := none }
      (s.links[n].session.isSession = false → ∃ t, exec (.linkDisable n) s = .next t ∧ settles t ∧
        t.links = upd s.links n off ∧ (∀ i, t.links[n].lda i = none) ∧ OnlyChanges s t [.links, .ports]) ∧
      (s.links[n].session.isSession = true → ∃ t, exec (.linkDisable n) s = .next t ∧ settles t ∧
        t.links = upd s.links n
          { off with
            lostCount := min (s.links[n].lostCount + 1) (max 255 s.links[n].lostCount)
            edges := s.links[n].edges.map (fun e => { e with live := false }) } ∧
        (∀ i, t.links[n].lda i = none) ∧
        t.held = s.held.filter (fun r => decide (panelOf r.pos ≠ n)) ∧
        (∀ q : KeyPos, t.sent[q] = if panelOf q = n then none else s.sent[q]) ∧
        (s.HeldLaw → AllOffered s t (fun h => s.lostReports n h ++ [panelReport .panelDown n 0])) ∧
        OnlyChanges s t [.links, .ports, .held, .queues, .noteLow, .sent, .derived, .dirty]))

/-- The probe timer, the holdoff timer and the time of a POLL. Run out, the first two begin an IDENTIFY with the probe
timer 250 ms on; a POLL in UP carries A = L and records its start, where no exchange is in flight and the poll
interval has passed since the last (R155, R156, R160, R161, R164). What counts as run out is log entry 3. -/
def Obligations.TimersBeginOrders : Prop :=
  ∀ (s : State) (n : LinkId),
    let probes := fun (c : Instr) => ∃ t, exec c s = .next t ∧
      (∃ d : Time, d.toNat = (s.deskTime.toNat + 250) % 65536 ∧
        t.links = upd s.links n
          { s.links[n] with
            session := .probing d, inFlight := some ⟨.identify, s.links[n].failures + 1⟩, lck := .clocking }) ∧
      OnlyChanges s t [.links]
    (∀ d : Time, s.links[n].session = .probing d → s.links[n].inFlight = none →
      ((s.deskTime = d ∨ 250 < (d - s.deskTime).toNat) → probes (.probeTimer n)) ∧
      (s.deskTime ≠ d → (d - s.deskTime).toNat ≤ 250 → ChangesNothing (.probeTimer n) s)) ∧
    (∀ d : Time, s.links[n].session = .holdoff d →
      ((s.deskTime = d ∨ 1000 < (d - s.deskTime).toNat) → probes (.holdoffTimer n)) ∧
      (s.deskTime ≠ d → (d - s.deskTime).toNat ≤ 1000 → ChangesNothing (.holdoffTimer n) s)) ∧
    (∀ i last start, s.links[n].session = .up i last start → s.links[n].inFlight = none →
      ((∀ x ∈ start, s.pollInterval.toNat ≤ (s.deskTime - x).toNat) → ∃ t, exec (.poll n) s = .next t ∧
        t.links = upd s.links n
          { s.links[n] with
            session := .up i last (some s.deskTime)
            inFlight := some ⟨.poll s.links[n].bitL, s.links[n].failures + 1⟩, lck := .clocking } ∧
        OnlyChanges s t [.links]) ∧
      ((∃ x ∈ start, (s.deskTime - x).toNat < s.pollInterval.toNat) → ChangesNothing (.poll n) s))

/-- A good IDENT in PROBING begins a session: the identity recorded, SYNCING with cause NEW, the IMAGE order begun. A
good IMAGE reply in SYNCING reconciles: the panel's records whose keys are up are removed, oldest first, RELEASE with
RESYNC where owed; then the keys below the key count that are down without a record are pressed, from key 0 upward,
each given a record with resync yes while the set has room, its latch turned over where it is TOGGLE, every notice
with RESYNC, BLOCKED where the set is full. The panel notice of the cause stands behind them in all four queues; then
the session is UP with L 0, every sent state of the panel UNKNOWN, and a LAMP for block 0 begun (R64 to R67, R71, R76,
R77, R95, R152, R157, R159). The notices are stated given at most one record a key, and the group rule of SELECT keys
among those pressed only for RESYNC. -/
def Obligations.SessionsBeginAndSynchronise : Prop :=
  ∀ (s : State) (n : LinkId),
    (∀ d k ty c, s.links[n].session = .probing d → s.links[n].inFlight = some ⟨.identify, k⟩ →
      1 ≤ c.toNat → c.toNat ≤ 128 → ∃ t, exec (.ident n ty c) s = .next t ∧
        t.links = upd s.links n
          { s.links[n] with
            session := .syncing .new ⟨ty, c.toNat⟩ .identify, failures := 0, inFlight := some ⟨.image, 1⟩
            lck := .clocking } ∧
        OnlyChanges s t [.links]) ∧
    (∀ cause i last k (keys : BitVec 128), s.links[n].session = .syncing cause i last →
      s.links[n].inFlight = some ⟨.image, k⟩ →
      let kept := s.held.filter (fun r => !goneFrom n keys r)
      let found := s.foundDown n i.keyCount keys
      let room := 16 - kept.length
      let gone := fun (h : Port) => (s.held.filter (goneFrom n keys)).flatMap (s.releaseReport h true false)
      let notice :=
        if cause = .new then panelReport .panelUp n (256 * i.panelType.toNat + i.keyCount)
        else panelReport .panelResync n 0
      ∃ t, exec (.imageReply n keys) s = .next t ∧
        (∃ states : Vector Lamp 8, (∀ b : Fin 8, states[b] = t.derived[lampPos (panelBlock n 0) b]) ∧
          t.links = upd s.links n
            { s.links[n] with
              session := .up i .image none, bitL := false, failures := 0, inFlight := some ⟨.lamp 0 states, 1⟩
              lck := .clocking }) ∧
        (∀ q : KeyPos, t.sent[q] = if panelOf q = n then none else s.sent[q]) ∧
        ((∀ q : KeyPos, s.derived[q] = s.lampFor q) → ∀ q : KeyPos, t.derived[q] = t.lampFor q) ∧
        (∀ q : KeyPos, t.table[q] = if q ∈ found.take room then s.table[q].pressed else s.table[q]) ∧
        (∃ made, t.held = kept ++ made ∧ made.map HeldRecord.pos = found.take room ∧
          (∀ r ∈ made, r.resync = true ∧ r.pressedAt = s.deskTime ∧ r.repeatCount = 0) ∧
          ((∀ q ∈ found, s.table[q].cls.group? = none) → made = (found.take room).map s.foundRecord)) ∧
        (s.HeldLaw →
          (∃ pressed : Port → List Report, (∀ h, ∀ r ∈ pressed h, r.resync = true) ∧
            AllOffered s t (fun h => gone h ++ pressed h ++ [notice])) ∧
          ((∀ q ∈ found, s.table[q].cls.group? = none) →
            t.groups = s.groups ∧
            AllOffered s t (fun h =>
              gone h ++ (found.take room).flatMap (s.foundReport h) ++ (found.drop room).flatMap (s.blockedReport h)
                ++ [notice]))) ∧
        OnlyChanges s t [.links, .table, .held, .groups, .queues, .noteLow, .sent, .derived, .dirty])

/-- Good replies to a POLL and to a LAMP in UP. NOTHING and EDGE make POLL the last order and, with a dirty block,
begin a LAMP for the lowest; an EDGE whose S differs from L turns L over and is handed on where its key is below the
key count, a duplicate is discarded. ACCEPT hands on the order's block and states and waits for the next POLL. The
same replies to a POLL or LAMP in flight as DESK RESET made the session SYNCING are handed on too, an edge no longer
live, and the IMAGE order follows (R63, R130, R132, R149, R151, R158, R160). -/
def Obligations.GoodRepliesInUp : Prop :=
  (∀ (s : State) (n : LinkId) (i : Identity) (last : OrderKind) (start : Option Time) (k : Nat),
    s.links[n].session = .up i last start →
    let goesOn := fun (c : Instr) (bitL : Bool) (edges : List HandedEdge) => ∃ t, exec c s = .next t ∧
      (let l : LinkEngine :=
        { s.links[n] with
          session := .up i .poll start, failures := 0, inFlight := none, lck := .high, bitL := bitL, edges := edges }
      ((∀ b : Fin 16, s.dirty[panelBlock n b] = false) → t.links = upd s.links n l) ∧
      (∀ b : Fin 16, s.dirty[panelBlock n b] = true → (∀ b' : Fin 16, b' < b → s.dirty[panelBlock n b'] = false) →
        ∃ states : Vector Lamp 8, (∀ j : Fin 8, states[j] = s.derived[lampPos (panelBlock n b) j]) ∧
          t.links = upd s.links n { l with inFlight := some ⟨.lamp b states, 1⟩, lck := .clocking })) ∧
      OnlyChanges s t [.links]
    (∀ a, s.links[n].inFlight = some ⟨.poll a, k⟩ →
      goesOn (.nothing n) s.links[n].bitL s.links[n].edges ∧
      (∀ bitS press key,
        (bitS = s.links[n].bitL → goesOn (.edge n bitS press key) s.links[n].bitL s.links[n].edges) ∧
        (bitS ≠ s.links[n].bitL →
          (i.keyCount ≤ key.toNat → goesOn (.edge n bitS press key) bitS s.links[n].edges) ∧
          (key.toNat < i.keyCount →
            goesOn (.edge n bitS press key) bitS
              (s.links[n].edges ++ [⟨press, posOf n ⟨key.toNat, key.isLt⟩, true⟩]))))) ∧
    (∀ b states, s.links[n].inFlight = some ⟨.lamp b states, k⟩ → ∃ t, exec (.accept n) s = .next t ∧
      t.links = upd s.links n
        { s.links[n] with
          session := .up i .lamp start, failures := 0, inFlight := none, lck := .high
          acceptances := s.links[n].acceptances ++ [⟨b, states⟩] } ∧
      OnlyChanges s t [.links])) ∧
  (∀ (s : State) (n : LinkId) (cause : SyncCause) (i : Identity) (last : OrderKind) (k : Nat),
    s.links[n].session = .syncing cause i last →
    let synchronises := fun (c : Instr) (answered : OrderKind) (bitL : Bool) (edges : List HandedEdge)
        (acceptances : List Acceptance) =>
      ∃ t, exec c s = .next t ∧
        t.links = upd s.links n
          { s.links[n] with
            session := .syncing cause i answered, failures := 0, inFlight := some ⟨.image, 1⟩, lck := .clocking
            bitL := bitL, edges := edges, acceptances := acceptances } ∧
        OnlyChanges s t [.links]
    let l := s.links[n]
    (∀ a, l.inFlight = some ⟨.poll a, k⟩ →
      synchronises (.nothing n) .poll l.bitL l.edges l.acceptances ∧
      (∀ bitS press key,
        (bitS = l.bitL → synchronises (.edge n bitS press key) .poll l.bitL l.edges l.acceptances) ∧
        (bitS ≠ l.bitL →
          (i.keyCount ≤ key.toNat → synchronises (.edge n bitS press key) .poll bitS l.edges l.acceptances) ∧
          (key.toNat < i.keyCount → synchronises (.edge n bitS press key) .poll bitS
            (l.edges ++ [⟨press, posOf n ⟨key.toNat, key.isLt⟩, false⟩]) l.acceptances)))) ∧
    (∀ b states, l.inFlight = some ⟨.lamp b states, k⟩ →
      synchronises (.accept n) .lamp l.bitL l.edges (l.acceptances ++ [⟨b, states⟩])))

/-- A good LOST reply: from UP the session passes to SYNCING with cause LOST, identity and L kept, the panel's sent
states UNKNOWN and its blocks dirty, the IMAGE order begun, no notice, and no edge handed over before live any more;
in SYNCING it changes only the consecutive failures, and the IMAGE order follows (R63, R129, R152, R162). -/
def Obligations.LostReplyResynchronises : Prop :=
  ∀ (s : State) (n : LinkId) (a : Bool) (k : Nat), s.links[n].inFlight = some ⟨.poll a, k⟩ →
    let image := fun (x : Session) =>
      { s.links[n] with session := x, failures := 0, inFlight := some ⟨.image, 1⟩, lck := .clocking }
    (∀ i last start, s.links[n].session = .up i last start → ∃ t, exec (.lost n) s = .next t ∧
      t.links = upd s.links n
        { image (.syncing .lost i .poll) with edges := s.links[n].edges.map (fun e => { e with live := false }) } ∧
      (∀ q : KeyPos, t.sent[q] = if panelOf q = n then none else s.sent[q]) ∧
      (∀ b : Fin 128, t.dirty[b] = if b.1 / 16 = n.1 then true else s.dirty[b]) ∧
      OnlyChanges s t [.links, .sent, .dirty]) ∧
    (∀ cause i last, s.links[n].session = .syncing cause i last → ∃ t, exec (.lost n) s = .next t ∧
      t.links = upd s.links n (image (.syncing cause i last)) ∧ OnlyChanges s t [.links])

/-- What is a good reply to an order, and a failed exchange: EXCHANGE_FAILED of any kind, or any reply that does not
fit its order, AGAIN to every order among them. The failed count rises and stays at 65535. In PROBING nothing follows;
in SYNCING and UP the first and second consecutive failures send the order again as the next attempt, or the IMAGE
order where the session is in SYNCING, and the third ends the session into HOLDOFF: the panel's held records removed,
RELEASE with LOST for each owed a closing notice, oldest first, then PANEL_DOWN to all four queues, given at most one
record a key, and no edge handed over live any more (R63, R78, R140, R142, R144, R146 to R149, R163). -/
def Obligations.FailedExchanges : Prop :=
  (∀ (o : LinkOrder) (r : Reply), fits o r = true ↔
    (o = .identify ∧ ∃ ty c, r = .ident ty c ∧ 1 ≤ c.toNat ∧ c.toNat ≤ 128) ∨ (o = .image ∧ ∃ keys, r = .image keys) ∨
    ((∃ a, o = .poll a) ∧ (r = .nothing ∨ r = .lost ∨ ∃ bitS press key, r = .edge bitS press key)) ∨
    ((∃ b v, o = .lamp b v) ∧ r = .accept)) ∧
  (∀ (s : State) (n : LinkId) (o : LinkOrder) (k : Nat) (c : Instr), s.links[n].inFlight = some ⟨o, k⟩ →
    ((∃ why, c = .exchangeFailed n why) ∨ (∃ r : Reply, fits o r = false ∧ c = r.command n)) →
    let failed := min (s.links[n].failedCount + 1) (max 65535 s.links[n].failedCount)
    (∀ d, s.links[n].session = .probing d → ∃ t, exec c s = .next t ∧
      t.links = upd s.links n { s.links[n] with inFlight := none, lck := .high, failedCount := failed } ∧
      OnlyChanges s t [.links]) ∧
    (s.links[n].session.isSession = true → s.links[n].failures < 2 → ∃ t, exec c s = .next t ∧
      t.links = upd s.links n
        { s.links[n] with
          failedCount := failed, failures := s.links[n].failures + 1, lck := .clocking
          inFlight := some
            ⟨match s.links[n].session with | .syncing _ _ _ => .image | _ => o, s.links[n].failures + 2⟩ } ∧
      OnlyChanges s t [.links]) ∧
    (s.links[n].session.isSession = true → s.links[n].failures = 2 → ∃ t, exec c s = .next t ∧
      (∃ d : Time, d.toNat = (s.deskTime.toNat + 1000) % 65536 ∧
        t.links = upd s.links n
          { s.links[n] with
            session := .holdoff d, failedCount := failed, failures := 0, inFlight := none, lck := .high
            lostCount := min (s.links[n].lostCount + 1) (max 255 s.links[n].lostCount)
            edges := s.links[n].edges.map (fun e => { e with live := false }) }) ∧
      t.held = s.held.filter (fun r => decide (panelOf r.pos ≠ n)) ∧
      (∀ q : KeyPos, t.sent[q] = if panelOf q = n then none else s.sent[q]) ∧
      (∀ b : Fin 128, t.dirty[b] = if b.1 / 16 = n.1 then true else s.dirty[b]) ∧
      (s.HeldLaw → AllOffered s t (fun h => s.lostReports n h ++ [panelReport .panelDown n 0])) ∧
      OnlyChanges s t [.links, .held, .queues, .noteLow, .sent, .derived, .dirty]))

/-- LAMP_ACCEPTANCE: the oldest acceptance handed over is written into the sent states of its block and the dirty flag
of the block recomputed, where the session is UP; otherwise it is discarded (R132). -/
def Obligations.AcceptanceWritesSent : Prop :=
  ∀ (s : State) (n : LinkId) (a : Acceptance) (rest : List Acceptance), s.links[n].acceptances = a :: rest →
    let took := fun (t : State) => t.links = upd s.links n { s.links[n] with acceptances := rest }
    ((∃ i last start, s.links[n].session = .up i last start) → ∃ t, exec (.lampAcceptance n) s = .next t ∧ took t ∧
      (∀ j : Fin 8, t.sent[lampPos (panelBlock n a.block) j] = some a.states[j]) ∧
      (∀ q : KeyPos, blockOf q ≠ panelBlock n a.block → t.sent[q] = s.sent[q]) ∧
      (t.dirty[panelBlock n a.block] = true ↔
        ∃ j : Fin 8, s.derived[lampPos (panelBlock n a.block) j] ≠ a.states[j]) ∧
      (∀ b : Fin 128, b ≠ panelBlock n a.block → t.dirty[b] = s.dirty[b]) ∧
      OnlyChanges s t [.links, .sent, .dirty]) ∧
    ((∀ i last start, s.links[n].session ≠ .up i last start) → ∃ t, exec (.lampAcceptance n) s = .next t ∧ took t ∧
      OnlyChanges s t [.links])

/-- DESK RESET, whole: non-FIXED bindings unbound with generation +1, FIXED ones kept with their latches OFF; every
ask ended RESET; every host PRESENT; the held-key set, the queues and the groups emptied; profiles at their defaults;
every sent state UNKNOWN and every block dirty; UP sessions in SYNCING with cause RESET, their edges not yet taken
live no more; desk time and settings kept (R17, R63, R186). -/
def Obligations.DeskResetClearsTheDesk : Prop :=
  ∀ s : State, WorkingOn s 0 .deskReset → s.YieldLaw →
    ∃ t, exec .deskReset s = .next t ∧
      (t.ports[0].state = .answered ⟨.ok, 0x72, []⟩ ∧ t.ports[0].refused = s.ports[0].refused) ∧
      (∀ q : KeyPos, s.table[q].owner = none → t.table[q] = s.table[q]) ∧
      (∀ q : KeyPos, s.table[q].owner ≠ none → s.table[q].hold ≠ .fixed →
        t.table[q] = Binding.unbound (s.table[q].gen + 1)) ∧
      (∀ q : KeyPos, s.table[q].owner ≠ none → s.table[q].hold = .fixed →
        (∀ l, s.table[q].cls = .toggle l → t.table[q] = { s.table[q] with cls := .toggle false }) ∧
        ((∀ l, s.table[q].cls ≠ .toggle l) → t.table[q] = s.table[q])) ∧
      (∀ i : AskId, t.asks[i] = none) ∧
      (∀ (i : AskId) (a : Ask), s.asks[i] = some a →
        t.ports[a.asker].state = .answered ⟨.reset, 0x20, []⟩) ∧
      (∀ p : Port, t.presence[p] = .present ∧ t.queues[p] = [] ∧ t.noteLow[p] = false ∧
        t.ports[p].lineMode = s.ports[p].lineMode ∧ t.ports[p].lapseTime = s.ports[p].lapseTime ∧
        t.ports[p].lapseFlag = s.ports[p].lapseFlag ∧
        (s.ports[p].lapseTime ≠ 0 → s.ports[p].csLow = false → t.ports[p].lapseStart = some s.deskTime)) ∧
      t.held = [] ∧ (∀ g : GroupId, t.groups[g] = none) ∧ t.profiles = State.reset.profiles ∧
      (∀ q : KeyPos, t.derived[q] = t.lampFor q ∧ t.sent[q] = none) ∧ (∀ b : Fin 128, t.dirty[b] = true) ∧
      (∀ n : LinkId,
        (∀ i last start, s.links[n].session = .up i last start →
          t.links[n].session = .syncing .reset i last ∧ t.links[n].bitL = s.links[n].bitL ∧
          t.links[n].failures = s.links[n].failures ∧
          t.links[n].edges = s.links[n].edges.map (fun e => { e with live := false }) ∧
          (s.links[n].inFlight = none → t.links[n].inFlight = some ⟨.image, s.links[n].failures + 1⟩) ∧
          (∀ x, s.links[n].inFlight = some x → t.links[n].inFlight = some x)) ∧
        ((∀ i last start, s.links[n].session ≠ .up i last start) → t.links[n] = s.links[n])) ∧
      OnlyChanges s t [.table, .asks, .presence, .queues, .noteLow, .ports, .held, .groups, .profiles, .derived, .sent,
        .dirty, .links]

/-! ## The wire -/

/-- What travels on a link is read whole. A reply that fits its order, sent as its frames after at most 24 bit times
of waiting, is the command of that reply. An order in flight is driven on LDAn for the 12 bit times of each of its
frames and no longer, and a panel that hears what is driven, after any wait, takes that order and answers it; with no
exchange in flight LDAn is released (R137 to R144, R193). -/
def Obligations.RepliesAreReadWhole : Prop :=
  (∀ (n : LinkId) (o : LinkOrder) (r : Reply) (wait : Nat), wait ≤ 24 → (fits o r = true ∨ r = .again) →
    exchangeCommand n o (List.replicate wait true ++ r.message.bits) = r.command n) ∧
  (∀ l : LinkEngine, l.inFlight = none → ∀ i, l.lda i = none) ∧
  (∀ (l : LinkEngine) (o : LinkOrder) (k : Nat), l.inFlight = some ⟨o, k⟩ →
    let length := 12 * (match o with | .identify => 1 | .image => 1 | .poll _ => 2 | .lamp _ _ => 4)
    (∀ i, (l.lda i).isSome = true ↔ i < length) ∧
    (∀ (x : Panel) (wait : Nat),
      x.hears (List.replicate wait true ++ (List.range length).map (fun i => (l.lda i).getD true)) false =
        ((x.take o).1, some (x.take o).2)))

/-- A single fault in the 11 bits after the start bit of a frame is found by the parity check or the stop bit. A panel
discards an order with such a fault in any of its frames, does nothing and answers AGAIN; so it does with an order of
an unknown code, a LAMP block index above 15, a control frame where a data frame is due, and a gap of more than 4 bit
times between frames, while a shorter gap is no fault. It does nothing and answers nothing where it sees no start bit
or where the order is cut short (R138, R139, R141, R193). -/
def Obligations.SingleFaultIsFound : Prop :=
  (∀ (k : Bool) (d : Byte) (rest : List Bool) (i : Nat), i < 11 →
    frameAt ((frame k d).tail ++ rest) = some (k, d) ∧
    frameAt (((frame k d).tail.modify i (fun b => !b)) ++ rest) = none) ∧
  (∀ (x : Panel) (o : LinkOrder) (i : Nat), i < o.message.bits.length → i % 12 ≠ 0 →
    x.hears (o.message.bits.modify i (fun b => !b)) false = (x, some .again)) ∧
  (∀ (x : Panel) (c : Byte), c ∉ [0x51#8, 0x52#8, 0x53#8, 0x54#8] → x.hears (frame true c) false = (x, some .again)) ∧
  (∀ (x : Panel) (b d e : Byte), 15 < b.toNat →
    x.hears (Message.bits ⟨0x54, [b, d, e]⟩) false = (x, some .again)) ∧
  (∀ (x : Panel) (c : Byte), x.hears (frame true 0x53 ++ frame true c) false = (x, some .again)) ∧
  (∀ (x : Panel) (a : Bool) (gap : Nat),
    x.hears (frame true 0x53 ++ List.replicate gap true ++ frame false (if a then 1 else 0)) false =
      if gap ≤ 4 then ((x.poll a).1, some (x.poll a).2) else (x, some .again)) ∧
  (∀ (x : Panel) (o : LinkOrder) (i : Nat), i < o.message.bits.length →
    x.hears (o.message.bits.take i) true = (x, none)) ∧
  (∀ (x : Panel) (cut : Bool) (wait : Nat), x.hears (List.replicate wait true) cut = (x, none))

/-- The two sides of the edge bit: with a panel that is not in its lost condition, a POLL it takes delivers its edges
to the part once each and in order, whether or not its reply arrives: what an EDGE reply brings is appended to the
edges handed to the event engine where its key is below the key count, and a duplicate changes nothing. `awaited` are
the edges of the buffer that the part has not accepted (R150, R151). -/
def Obligations.EdgesArriveOnceInOrder : Prop :=
  ∀ (x : Panel) (l : LinkEngine) (n : LinkId),
    let awaited := fun (y : Panel) (bitL : Bool) =>
      if y.outstanding = true ∧ bitL = y.lastSent then y.buffer.tail else y.buffer
    let agree := fun (y : Panel) (bitL : Bool) =>
      (y.outstanding = false → bitL = y.lastSent) ∧ (y.outstanding = true → y.buffer ≠ [])
    x.lost = false → agree x l.bitL →
    (agree (x.poll l.bitL).1 l.bitL ∧ awaited (x.poll l.bitL).1 l.bitL = awaited x l.bitL) ∧
    ((x.poll l.bitL).2 = .nothing → awaited x l.bitL = []) ∧
    (∀ bitS press key, (x.poll l.bitL).2 = .edge bitS press key →
      agree (x.poll l.bitL).1 (l.takeEdge n bitS press key).bitL ∧
      awaited x l.bitL = ⟨press, key⟩ :: awaited (x.poll l.bitL).1 (l.takeEdge n bitS press key).bitL ∧
      l.takeEdge n bitS press key =
        { l with
          bitL := bitS
          edges := l.edges ++
            (if key.toNat < ((l.session.identity).map Identity.keyCount).getD 0 then
              [⟨press, posOf n ⟨key.toNat, key.isLt⟩, l.session.isUp⟩] else []) }) ∧
    (∀ press key, l.takeEdge n l.bitL press key = l)
end

