-- ==== Sys2Proof/Laws/State.lean ====
section
/-! SUPPORT. One lemma per field per update of State: reading a field after an update gives the update or the field as it
was; and reading an entry of a table after one entry is replaced. -/

namespace Sys2Proof

@[simp] theorem upd_getElem {α : Type} {n : Nat} (v : Vector α n) (i : Fin n) (a : α) (k : Nat) (h : k < n) :
    (upd v i a)[k] = if i.1 = k then a else v[k] := by
  simp [upd, Vector.getElem_set]

theorem upd_self {α : Type} {n : Nat} (v : Vector α n) (i : Fin n) (a : α) : (upd v i a)[i] = a := by
  simp

theorem upd_ne {α : Type} {n : Nat} (v : Vector α n) (i j : Fin n) (a : α) (h : i ≠ j) :
    (upd v i a)[j] = v[j] := by
  simp [Fin.val_ne_of_ne h]

@[simp] theorem tabulate_getElem {α : Type} (n : Nat) (f : Fin n → α) (k : Nat) (h : k < n) :
    (tabulate n f)[k] = f ⟨k, h⟩ := by
  simp [tabulate]

/-- A second replacement of one entry stands alone. -/
@[simp] theorem upd_upd {α : Type} {n : Nat} (v : Vector α n) (i : Fin n) (a b : α) :
    upd (upd v i a) i b = upd v i b := by
  ext k h
  by_cases e : i.1 = k <;> simp [e]

/-- Replacements of two entries commute. -/
theorem upd_comm {α : Type} {n : Nat} (v : Vector α n) (i j : Fin n) (a b : α) (h : i ≠ j) :
    upd (upd v i a) j b = upd (upd v j b) i a := by
  ext k hk
  have : i.1 ≠ j.1 := fun e => h (Fin.ext e)
  simp only [upd_getElem]
  split_ifs <;> first | rfl | omega

/-- Replacing an entry by itself changes nothing. -/
theorem upd_get {α : Type} {n : Nat} (v : Vector α n) (i : Fin n) : upd v i v[i] = v := by
  ext k h
  by_cases e : i.1 = k <;> simp [e]

end Sys2Proof

namespace Sys2Proof.Machine

variable (s : State)

@[simp] theorem State.setBinding_table (q : KeyPos) (b : Binding) : (s.setBinding q b).table = upd s.table q b := rfl
@[simp] theorem State.setBinding_held (q : KeyPos) (b : Binding) : (s.setBinding q b).held = s.held := rfl
@[simp] theorem State.setBinding_profiles (q : KeyPos) (b : Binding) : (s.setBinding q b).profiles = s.profiles := rfl
@[simp] theorem State.setBinding_groups (q : KeyPos) (b : Binding) : (s.setBinding q b).groups = s.groups := rfl
@[simp] theorem State.setBinding_asks (q : KeyPos) (b : Binding) : (s.setBinding q b).asks = s.asks := rfl
@[simp] theorem State.setBinding_presence (q : KeyPos) (b : Binding) : (s.setBinding q b).presence = s.presence := rfl
@[simp] theorem State.setBinding_queues (q : KeyPos) (b : Binding) : (s.setBinding q b).queues = s.queues := rfl
@[simp] theorem State.setBinding_noteLow (q : KeyPos) (b : Binding) : (s.setBinding q b).noteLow = s.noteLow := rfl
@[simp] theorem State.setBinding_derived (q : KeyPos) (b : Binding) : (s.setBinding q b).derived = s.derived := rfl
@[simp] theorem State.setBinding_sent (q : KeyPos) (b : Binding) : (s.setBinding q b).sent = s.sent := rfl
@[simp] theorem State.setBinding_dirty (q : KeyPos) (b : Binding) : (s.setBinding q b).dirty = s.dirty := rfl
@[simp] theorem State.setBinding_links (q : KeyPos) (b : Binding) : (s.setBinding q b).links = s.links := rfl
@[simp] theorem State.setBinding_ports (q : KeyPos) (b : Binding) : (s.setBinding q b).ports = s.ports := rfl
@[simp] theorem State.setBinding_deskTime (q : KeyPos) (b : Binding) : (s.setBinding q b).deskTime = s.deskTime := rfl
@[simp] theorem State.setBinding_mask (q : KeyPos) (b : Binding) : (s.setBinding q b).mask = s.mask := rfl
@[simp] theorem State.setBinding_pollInterval (q : KeyPos) (b : Binding) : (s.setBinding q b).pollInterval = s.pollInterval := rfl
@[simp] theorem State.setBinding_yieldWait (q : KeyPos) (b : Binding) : (s.setBinding q b).yieldWait = s.yieldWait := rfl
@[simp] theorem State.setBinding_resetLow (q : KeyPos) (b : Binding) : (s.setBinding q b).resetLow = s.resetLow := rfl
@[simp] theorem State.setBinding_pending (q : KeyPos) (b : Binding) : (s.setBinding q b).pending = s.pending := rfl

@[simp] theorem State.setGroup_table (g : GroupId) (x : Option SelGroup) : (s.setGroup g x).table = s.table := rfl
@[simp] theorem State.setGroup_held (g : GroupId) (x : Option SelGroup) : (s.setGroup g x).held = s.held := rfl
@[simp] theorem State.setGroup_profiles (g : GroupId) (x : Option SelGroup) : (s.setGroup g x).profiles = s.profiles := rfl
@[simp] theorem State.setGroup_groups (g : GroupId) (x : Option SelGroup) : (s.setGroup g x).groups = upd s.groups g x := rfl
@[simp] theorem State.setGroup_asks (g : GroupId) (x : Option SelGroup) : (s.setGroup g x).asks = s.asks := rfl
@[simp] theorem State.setGroup_presence (g : GroupId) (x : Option SelGroup) : (s.setGroup g x).presence = s.presence := rfl
@[simp] theorem State.setGroup_queues (g : GroupId) (x : Option SelGroup) : (s.setGroup g x).queues = s.queues := rfl
@[simp] theorem State.setGroup_noteLow (g : GroupId) (x : Option SelGroup) : (s.setGroup g x).noteLow = s.noteLow := rfl
@[simp] theorem State.setGroup_derived (g : GroupId) (x : Option SelGroup) : (s.setGroup g x).derived = s.derived := rfl
@[simp] theorem State.setGroup_sent (g : GroupId) (x : Option SelGroup) : (s.setGroup g x).sent = s.sent := rfl
@[simp] theorem State.setGroup_dirty (g : GroupId) (x : Option SelGroup) : (s.setGroup g x).dirty = s.dirty := rfl
@[simp] theorem State.setGroup_links (g : GroupId) (x : Option SelGroup) : (s.setGroup g x).links = s.links := rfl
@[simp] theorem State.setGroup_ports (g : GroupId) (x : Option SelGroup) : (s.setGroup g x).ports = s.ports := rfl
@[simp] theorem State.setGroup_deskTime (g : GroupId) (x : Option SelGroup) : (s.setGroup g x).deskTime = s.deskTime := rfl
@[simp] theorem State.setGroup_mask (g : GroupId) (x : Option SelGroup) : (s.setGroup g x).mask = s.mask := rfl
@[simp] theorem State.setGroup_pollInterval (g : GroupId) (x : Option SelGroup) : (s.setGroup g x).pollInterval = s.pollInterval := rfl
@[simp] theorem State.setGroup_yieldWait (g : GroupId) (x : Option SelGroup) : (s.setGroup g x).yieldWait = s.yieldWait := rfl
@[simp] theorem State.setGroup_resetLow (g : GroupId) (x : Option SelGroup) : (s.setGroup g x).resetLow = s.resetLow := rfl
@[simp] theorem State.setGroup_pending (g : GroupId) (x : Option SelGroup) : (s.setGroup g x).pending = s.pending := rfl

@[simp] theorem State.setAsk_table (i : AskId) (x : Option Ask) : (s.setAsk i x).table = s.table := rfl
@[simp] theorem State.setAsk_held (i : AskId) (x : Option Ask) : (s.setAsk i x).held = s.held := rfl
@[simp] theorem State.setAsk_profiles (i : AskId) (x : Option Ask) : (s.setAsk i x).profiles = s.profiles := rfl
@[simp] theorem State.setAsk_groups (i : AskId) (x : Option Ask) : (s.setAsk i x).groups = s.groups := rfl
@[simp] theorem State.setAsk_asks (i : AskId) (x : Option Ask) : (s.setAsk i x).asks = upd s.asks i x := rfl
@[simp] theorem State.setAsk_presence (i : AskId) (x : Option Ask) : (s.setAsk i x).presence = s.presence := rfl
@[simp] theorem State.setAsk_queues (i : AskId) (x : Option Ask) : (s.setAsk i x).queues = s.queues := rfl
@[simp] theorem State.setAsk_noteLow (i : AskId) (x : Option Ask) : (s.setAsk i x).noteLow = s.noteLow := rfl
@[simp] theorem State.setAsk_derived (i : AskId) (x : Option Ask) : (s.setAsk i x).derived = s.derived := rfl
@[simp] theorem State.setAsk_sent (i : AskId) (x : Option Ask) : (s.setAsk i x).sent = s.sent := rfl
@[simp] theorem State.setAsk_dirty (i : AskId) (x : Option Ask) : (s.setAsk i x).dirty = s.dirty := rfl
@[simp] theorem State.setAsk_links (i : AskId) (x : Option Ask) : (s.setAsk i x).links = s.links := rfl
@[simp] theorem State.setAsk_ports (i : AskId) (x : Option Ask) : (s.setAsk i x).ports = s.ports := rfl
@[simp] theorem State.setAsk_deskTime (i : AskId) (x : Option Ask) : (s.setAsk i x).deskTime = s.deskTime := rfl
@[simp] theorem State.setAsk_mask (i : AskId) (x : Option Ask) : (s.setAsk i x).mask = s.mask := rfl
@[simp] theorem State.setAsk_pollInterval (i : AskId) (x : Option Ask) : (s.setAsk i x).pollInterval = s.pollInterval := rfl
@[simp] theorem State.setAsk_yieldWait (i : AskId) (x : Option Ask) : (s.setAsk i x).yieldWait = s.yieldWait := rfl
@[simp] theorem State.setAsk_resetLow (i : AskId) (x : Option Ask) : (s.setAsk i x).resetLow = s.resetLow := rfl
@[simp] theorem State.setAsk_pending (i : AskId) (x : Option Ask) : (s.setAsk i x).pending = s.pending := rfl

@[simp] theorem State.setPort_table (p : Port) (u : PortUnit) : (s.setPort p u).table = s.table := rfl
@[simp] theorem State.setPort_held (p : Port) (u : PortUnit) : (s.setPort p u).held = s.held := rfl
@[simp] theorem State.setPort_profiles (p : Port) (u : PortUnit) : (s.setPort p u).profiles = s.profiles := rfl
@[simp] theorem State.setPort_groups (p : Port) (u : PortUnit) : (s.setPort p u).groups = s.groups := rfl
@[simp] theorem State.setPort_asks (p : Port) (u : PortUnit) : (s.setPort p u).asks = s.asks := rfl
@[simp] theorem State.setPort_presence (p : Port) (u : PortUnit) : (s.setPort p u).presence = s.presence := rfl
@[simp] theorem State.setPort_queues (p : Port) (u : PortUnit) : (s.setPort p u).queues = s.queues := rfl
@[simp] theorem State.setPort_noteLow (p : Port) (u : PortUnit) : (s.setPort p u).noteLow = s.noteLow := rfl
@[simp] theorem State.setPort_derived (p : Port) (u : PortUnit) : (s.setPort p u).derived = s.derived := rfl
@[simp] theorem State.setPort_sent (p : Port) (u : PortUnit) : (s.setPort p u).sent = s.sent := rfl
@[simp] theorem State.setPort_dirty (p : Port) (u : PortUnit) : (s.setPort p u).dirty = s.dirty := rfl
@[simp] theorem State.setPort_links (p : Port) (u : PortUnit) : (s.setPort p u).links = s.links := rfl
@[simp] theorem State.setPort_ports (p : Port) (u : PortUnit) : (s.setPort p u).ports = upd s.ports p u := rfl
@[simp] theorem State.setPort_deskTime (p : Port) (u : PortUnit) : (s.setPort p u).deskTime = s.deskTime := rfl
@[simp] theorem State.setPort_mask (p : Port) (u : PortUnit) : (s.setPort p u).mask = s.mask := rfl
@[simp] theorem State.setPort_pollInterval (p : Port) (u : PortUnit) : (s.setPort p u).pollInterval = s.pollInterval := rfl
@[simp] theorem State.setPort_yieldWait (p : Port) (u : PortUnit) : (s.setPort p u).yieldWait = s.yieldWait := rfl
@[simp] theorem State.setPort_resetLow (p : Port) (u : PortUnit) : (s.setPort p u).resetLow = s.resetLow := rfl
@[simp] theorem State.setPort_pending (p : Port) (u : PortUnit) : (s.setPort p u).pending = s.pending := rfl

@[simp] theorem State.setLink_table (n : LinkId) (l : LinkEngine) : (s.setLink n l).table = s.table := rfl
@[simp] theorem State.setLink_held (n : LinkId) (l : LinkEngine) : (s.setLink n l).held = s.held := rfl
@[simp] theorem State.setLink_profiles (n : LinkId) (l : LinkEngine) : (s.setLink n l).profiles = s.profiles := rfl
@[simp] theorem State.setLink_groups (n : LinkId) (l : LinkEngine) : (s.setLink n l).groups = s.groups := rfl
@[simp] theorem State.setLink_asks (n : LinkId) (l : LinkEngine) : (s.setLink n l).asks = s.asks := rfl
@[simp] theorem State.setLink_presence (n : LinkId) (l : LinkEngine) : (s.setLink n l).presence = s.presence := rfl
@[simp] theorem State.setLink_queues (n : LinkId) (l : LinkEngine) : (s.setLink n l).queues = s.queues := rfl
@[simp] theorem State.setLink_noteLow (n : LinkId) (l : LinkEngine) : (s.setLink n l).noteLow = s.noteLow := rfl
@[simp] theorem State.setLink_derived (n : LinkId) (l : LinkEngine) : (s.setLink n l).derived = s.derived := rfl
@[simp] theorem State.setLink_sent (n : LinkId) (l : LinkEngine) : (s.setLink n l).sent = s.sent := rfl
@[simp] theorem State.setLink_dirty (n : LinkId) (l : LinkEngine) : (s.setLink n l).dirty = s.dirty := rfl
@[simp] theorem State.setLink_links (n : LinkId) (l : LinkEngine) : (s.setLink n l).links = upd s.links n l := rfl
@[simp] theorem State.setLink_ports (n : LinkId) (l : LinkEngine) : (s.setLink n l).ports = s.ports := rfl
@[simp] theorem State.setLink_deskTime (n : LinkId) (l : LinkEngine) : (s.setLink n l).deskTime = s.deskTime := rfl
@[simp] theorem State.setLink_mask (n : LinkId) (l : LinkEngine) : (s.setLink n l).mask = s.mask := rfl
@[simp] theorem State.setLink_pollInterval (n : LinkId) (l : LinkEngine) : (s.setLink n l).pollInterval = s.pollInterval := rfl
@[simp] theorem State.setLink_yieldWait (n : LinkId) (l : LinkEngine) : (s.setLink n l).yieldWait = s.yieldWait := rfl
@[simp] theorem State.setLink_resetLow (n : LinkId) (l : LinkEngine) : (s.setLink n l).resetLow = s.resetLow := rfl
@[simp] theorem State.setLink_pending (n : LinkId) (l : LinkEngine) : (s.setLink n l).pending = s.pending := rfl

@[simp] theorem State.setPresence_table (p : Port) (x : Presence) : (s.setPresence p x).table = s.table := rfl
@[simp] theorem State.setPresence_held (p : Port) (x : Presence) : (s.setPresence p x).held = s.held := rfl
@[simp] theorem State.setPresence_profiles (p : Port) (x : Presence) : (s.setPresence p x).profiles = s.profiles := rfl
@[simp] theorem State.setPresence_groups (p : Port) (x : Presence) : (s.setPresence p x).groups = s.groups := rfl
@[simp] theorem State.setPresence_asks (p : Port) (x : Presence) : (s.setPresence p x).asks = s.asks := rfl
@[simp] theorem State.setPresence_presence (p : Port) (x : Presence) : (s.setPresence p x).presence = upd s.presence p x := rfl
@[simp] theorem State.setPresence_queues (p : Port) (x : Presence) : (s.setPresence p x).queues = s.queues := rfl
@[simp] theorem State.setPresence_noteLow (p : Port) (x : Presence) : (s.setPresence p x).noteLow = s.noteLow := rfl
@[simp] theorem State.setPresence_derived (p : Port) (x : Presence) : (s.setPresence p x).derived = s.derived := rfl
@[simp] theorem State.setPresence_sent (p : Port) (x : Presence) : (s.setPresence p x).sent = s.sent := rfl
@[simp] theorem State.setPresence_dirty (p : Port) (x : Presence) : (s.setPresence p x).dirty = s.dirty := rfl
@[simp] theorem State.setPresence_links (p : Port) (x : Presence) : (s.setPresence p x).links = s.links := rfl
@[simp] theorem State.setPresence_ports (p : Port) (x : Presence) : (s.setPresence p x).ports = s.ports := rfl
@[simp] theorem State.setPresence_deskTime (p : Port) (x : Presence) : (s.setPresence p x).deskTime = s.deskTime := rfl
@[simp] theorem State.setPresence_mask (p : Port) (x : Presence) : (s.setPresence p x).mask = s.mask := rfl
@[simp] theorem State.setPresence_pollInterval (p : Port) (x : Presence) : (s.setPresence p x).pollInterval = s.pollInterval := rfl
@[simp] theorem State.setPresence_yieldWait (p : Port) (x : Presence) : (s.setPresence p x).yieldWait = s.yieldWait := rfl
@[simp] theorem State.setPresence_resetLow (p : Port) (x : Presence) : (s.setPresence p x).resetLow = s.resetLow := rfl
@[simp] theorem State.setPresence_pending (p : Port) (x : Presence) : (s.setPresence p x).pending = s.pending := rfl

end Sys2Proof.Machine
end

