-- ==== Sys2Proof/Laws/Frames.lean ====
section
/-! SUPPORT. What each shared operation leaves unchanged: one frame lemma per operation, its conjuncts the fields that the
operation does not write. -/

namespace Sys2Proof.Machine

variable (s : State)

/-- What every operation of a fold keeps, the fold keeps. -/
theorem foldl_keeps {α β : Type} (f : State → β) (g : State → α → State) (h : ∀ t x, f (g t x) = f t) (l : List α)
    (t : State) : f (l.foldl g t) = f t := by
  induction l generalizing t with
  | nil => rfl
  | cons x xs ih => rw [List.foldl_cons, ih, h]

@[simp] theorem State.driveNote_frame (p : Port) :
    (s.driveNote p).table = s.table ∧ (s.driveNote p).held = s.held ∧ (s.driveNote p).profiles = s.profiles ∧
    (s.driveNote p).groups = s.groups ∧ (s.driveNote p).asks = s.asks ∧ (s.driveNote p).presence = s.presence ∧
    (s.driveNote p).queues = s.queues ∧ (s.driveNote p).derived = s.derived ∧ (s.driveNote p).sent = s.sent ∧
    (s.driveNote p).dirty = s.dirty ∧ (s.driveNote p).links = s.links ∧ (s.driveNote p).ports = s.ports ∧
    (s.driveNote p).deskTime = s.deskTime ∧ (s.driveNote p).mask = s.mask ∧
    (s.driveNote p).pollInterval = s.pollInterval ∧ (s.driveNote p).yieldWait = s.yieldWait ∧
    (s.driveNote p).resetLow = s.resetLow ∧ (s.driveNote p).pending = s.pending := by
  simp [State.driveNote]

@[simp] theorem State.answer_frame (p : Port) (st : StatusCode) (d : List Byte) :
    (s.answer p st d).table = s.table ∧ (s.answer p st d).held = s.held ∧ (s.answer p st d).profiles = s.profiles ∧
    (s.answer p st d).groups = s.groups ∧ (s.answer p st d).asks = s.asks ∧
    (s.answer p st d).presence = s.presence ∧ (s.answer p st d).queues = s.queues ∧
    (s.answer p st d).noteLow = s.noteLow ∧ (s.answer p st d).derived = s.derived ∧
    (s.answer p st d).sent = s.sent ∧ (s.answer p st d).dirty = s.dirty ∧ (s.answer p st d).links = s.links ∧
    (s.answer p st d).deskTime = s.deskTime ∧ (s.answer p st d).mask = s.mask ∧
    (s.answer p st d).pollInterval = s.pollInterval ∧ (s.answer p st d).yieldWait = s.yieldWait ∧
    (s.answer p st d).resetLow = s.resetLow ∧ (s.answer p st d).pending = s.pending := by
  unfold State.answer; split <;> simp

@[simp] theorem State.offer_frame (p : Port) (r : Report) :
    (s.offer p r).table = s.table ∧ (s.offer p r).held = s.held ∧ (s.offer p r).profiles = s.profiles ∧
    (s.offer p r).groups = s.groups ∧ (s.offer p r).asks = s.asks ∧ (s.offer p r).presence = s.presence ∧
    (s.offer p r).derived = s.derived ∧ (s.offer p r).sent = s.sent ∧ (s.offer p r).dirty = s.dirty ∧
    (s.offer p r).links = s.links ∧ (s.offer p r).ports = s.ports ∧ (s.offer p r).deskTime = s.deskTime ∧
    (s.offer p r).mask = s.mask ∧ (s.offer p r).pollInterval = s.pollInterval ∧
    (s.offer p r).yieldWait = s.yieldWait ∧ (s.offer p r).resetLow = s.resetLow ∧ (s.offer p r).pending = s.pending := by
  simp [State.offer]

@[simp] theorem State.panelNotice_frame (k : NoticeKind) (n : LinkId) (e : Half) :
    (s.panelNotice k n e).table = s.table ∧ (s.panelNotice k n e).held = s.held ∧
    (s.panelNotice k n e).profiles = s.profiles ∧ (s.panelNotice k n e).groups = s.groups ∧
    (s.panelNotice k n e).asks = s.asks ∧ (s.panelNotice k n e).presence = s.presence ∧
    (s.panelNotice k n e).derived = s.derived ∧ (s.panelNotice k n e).sent = s.sent ∧
    (s.panelNotice k n e).dirty = s.dirty ∧ (s.panelNotice k n e).links = s.links ∧
    (s.panelNotice k n e).ports = s.ports ∧ (s.panelNotice k n e).deskTime = s.deskTime ∧
    (s.panelNotice k n e).mask = s.mask ∧ (s.panelNotice k n e).pollInterval = s.pollInterval ∧
    (s.panelNotice k n e).yieldWait = s.yieldWait ∧ (s.panelNotice k n e).resetLow = s.resetLow ∧
    (s.panelNotice k n e).pending = s.pending := by
  unfold State.panelNotice; refine ⟨?_, ?_, ?_, ?_, ?_, ?_, ?_, ?_, ?_, ?_, ?_, ?_, ?_, ?_, ?_, ?_, ?_⟩ <;> exact foldl_keeps _ _ (by simp) _ _

@[simp] theorem State.emptyQueue_frame (p : Port) :
    (s.emptyQueue p).table = s.table ∧ (s.emptyQueue p).held = s.held ∧ (s.emptyQueue p).profiles = s.profiles ∧
    (s.emptyQueue p).groups = s.groups ∧ (s.emptyQueue p).asks = s.asks ∧ (s.emptyQueue p).presence = s.presence ∧
    (s.emptyQueue p).derived = s.derived ∧ (s.emptyQueue p).sent = s.sent ∧ (s.emptyQueue p).dirty = s.dirty ∧
    (s.emptyQueue p).links = s.links ∧ (s.emptyQueue p).deskTime = s.deskTime ∧ (s.emptyQueue p).mask = s.mask ∧
    (s.emptyQueue p).pollInterval = s.pollInterval ∧ (s.emptyQueue p).yieldWait = s.yieldWait ∧
    (s.emptyQueue p).resetLow = s.resetLow ∧ (s.emptyQueue p).pending = s.pending := by
  simp [State.emptyQueue]

@[simp] theorem State.rederive_frame (q : KeyPos) :
    (s.rederive q).table = s.table ∧ (s.rederive q).held = s.held ∧ (s.rederive q).profiles = s.profiles ∧
    (s.rederive q).groups = s.groups ∧ (s.rederive q).asks = s.asks ∧ (s.rederive q).presence = s.presence ∧
    (s.rederive q).queues = s.queues ∧ (s.rederive q).noteLow = s.noteLow ∧ (s.rederive q).sent = s.sent ∧
    (s.rederive q).links = s.links ∧ (s.rederive q).ports = s.ports ∧ (s.rederive q).deskTime = s.deskTime ∧
    (s.rederive q).mask = s.mask ∧ (s.rederive q).pollInterval = s.pollInterval ∧
    (s.rederive q).yieldWait = s.yieldWait ∧ (s.rederive q).resetLow = s.resetLow ∧
    (s.rederive q).pending = s.pending := by
  simp [State.rederive]

@[simp] theorem State.forgetSent_frame (n : LinkId) :
    (s.forgetSent n).table = s.table ∧ (s.forgetSent n).held = s.held ∧ (s.forgetSent n).profiles = s.profiles ∧
    (s.forgetSent n).groups = s.groups ∧ (s.forgetSent n).asks = s.asks ∧ (s.forgetSent n).presence = s.presence ∧
    (s.forgetSent n).queues = s.queues ∧ (s.forgetSent n).noteLow = s.noteLow ∧
    (s.forgetSent n).derived = s.derived ∧ (s.forgetSent n).links = s.links ∧ (s.forgetSent n).ports = s.ports ∧
    (s.forgetSent n).deskTime = s.deskTime ∧ (s.forgetSent n).mask = s.mask ∧
    (s.forgetSent n).pollInterval = s.pollInterval ∧ (s.forgetSent n).yieldWait = s.yieldWait ∧
    (s.forgetSent n).resetLow = s.resetLow ∧ (s.forgetSent n).pending = s.pending := by
  simp [State.forgetSent]

@[simp] theorem State.modifyHeld_frame (q : KeyPos) (f : HeldRecord → HeldRecord) :
    (s.modifyHeld q f).table = s.table ∧ (s.modifyHeld q f).profiles = s.profiles ∧
    (s.modifyHeld q f).groups = s.groups ∧ (s.modifyHeld q f).asks = s.asks ∧
    (s.modifyHeld q f).presence = s.presence ∧ (s.modifyHeld q f).queues = s.queues ∧
    (s.modifyHeld q f).noteLow = s.noteLow ∧ (s.modifyHeld q f).derived = s.derived ∧
    (s.modifyHeld q f).sent = s.sent ∧ (s.modifyHeld q f).dirty = s.dirty ∧ (s.modifyHeld q f).links = s.links ∧
    (s.modifyHeld q f).ports = s.ports ∧ (s.modifyHeld q f).deskTime = s.deskTime ∧
    (s.modifyHeld q f).mask = s.mask ∧ (s.modifyHeld q f).pollInterval = s.pollInterval ∧
    (s.modifyHeld q f).yieldWait = s.yieldWait ∧ (s.modifyHeld q f).resetLow = s.resetLow ∧
    (s.modifyHeld q f).pending = s.pending := by
  simp [State.modifyHeld]

@[simp] theorem State.removeHeld_frame (q : KeyPos) :
    (s.removeHeld q).table = s.table ∧ (s.removeHeld q).profiles = s.profiles ∧
    (s.removeHeld q).groups = s.groups ∧ (s.removeHeld q).asks = s.asks ∧ (s.removeHeld q).presence = s.presence ∧
    (s.removeHeld q).queues = s.queues ∧ (s.removeHeld q).noteLow = s.noteLow ∧
    (s.removeHeld q).derived = s.derived ∧ (s.removeHeld q).sent = s.sent ∧ (s.removeHeld q).dirty = s.dirty ∧
    (s.removeHeld q).links = s.links ∧ (s.removeHeld q).ports = s.ports ∧ (s.removeHeld q).deskTime = s.deskTime ∧
    (s.removeHeld q).mask = s.mask ∧ (s.removeHeld q).pollInterval = s.pollInterval ∧
    (s.removeHeld q).yieldWait = s.yieldWait ∧ (s.removeHeld q).resetLow = s.resetLow ∧
    (s.removeHeld q).pending = s.pending := by
  simp [State.removeHeld]

@[simp] theorem State.withdraw_frame (a : Bool) (q : KeyPos) :
    (s.withdraw a q).table = s.table ∧ (s.withdraw a q).profiles = s.profiles ∧
    (s.withdraw a q).groups = s.groups ∧ (s.withdraw a q).asks = s.asks ∧ (s.withdraw a q).presence = s.presence ∧
    (s.withdraw a q).derived = s.derived ∧ (s.withdraw a q).sent = s.sent ∧ (s.withdraw a q).dirty = s.dirty ∧
    (s.withdraw a q).links = s.links ∧ (s.withdraw a q).ports = s.ports ∧ (s.withdraw a q).deskTime = s.deskTime ∧
    (s.withdraw a q).mask = s.mask ∧ (s.withdraw a q).pollInterval = s.pollInterval ∧
    (s.withdraw a q).yieldWait = s.yieldWait ∧ (s.withdraw a q).resetLow = s.resetLow ∧
    (s.withdraw a q).pending = s.pending := by
  unfold State.withdraw; repeat' (first | (split) | (refine ⟨?_, ?_⟩) | rfl)

@[simp] theorem State.releaseKey_frame (r l : Bool) (q : KeyPos) :
    (s.releaseKey r l q).table = s.table ∧ (s.releaseKey r l q).profiles = s.profiles ∧
    (s.releaseKey r l q).groups = s.groups ∧ (s.releaseKey r l q).asks = s.asks ∧
    (s.releaseKey r l q).presence = s.presence ∧ (s.releaseKey r l q).sent = s.sent ∧
    (s.releaseKey r l q).links = s.links ∧ (s.releaseKey r l q).ports = s.ports ∧
    (s.releaseKey r l q).deskTime = s.deskTime ∧ (s.releaseKey r l q).mask = s.mask ∧
    (s.releaseKey r l q).pollInterval = s.pollInterval ∧ (s.releaseKey r l q).yieldWait = s.yieldWait ∧
    (s.releaseKey r l q).resetLow = s.resetLow ∧ (s.releaseKey r l q).pending = s.pending := by
  unfold State.releaseKey; repeat' (first | (split) | (refine ⟨?_, ?_⟩) | rfl)

@[simp] theorem State.leaveGroup_frame (a : Bool) (q : KeyPos) :
    (s.leaveGroup a q).table = s.table ∧ (s.leaveGroup a q).held = s.held ∧
    (s.leaveGroup a q).profiles = s.profiles ∧ (s.leaveGroup a q).asks = s.asks ∧
    (s.leaveGroup a q).presence = s.presence ∧ (s.leaveGroup a q).derived = s.derived ∧
    (s.leaveGroup a q).sent = s.sent ∧ (s.leaveGroup a q).dirty = s.dirty ∧ (s.leaveGroup a q).links = s.links ∧
    (s.leaveGroup a q).ports = s.ports ∧ (s.leaveGroup a q).deskTime = s.deskTime ∧
    (s.leaveGroup a q).mask = s.mask ∧ (s.leaveGroup a q).pollInterval = s.pollInterval ∧
    (s.leaveGroup a q).yieldWait = s.yieldWait ∧ (s.leaveGroup a q).resetLow = s.resetLow ∧
    (s.leaveGroup a q).pending = s.pending := by
  unfold State.leaveGroup; repeat' (first | (split) | (refine ⟨?_, ?_⟩) | rfl)

@[simp] theorem State.joinGroup_frame (q : KeyPos) :
    (s.joinGroup q).table = s.table ∧ (s.joinGroup q).held = s.held ∧ (s.joinGroup q).profiles = s.profiles ∧
    (s.joinGroup q).asks = s.asks ∧ (s.joinGroup q).presence = s.presence ∧ (s.joinGroup q).queues = s.queues ∧
    (s.joinGroup q).noteLow = s.noteLow ∧ (s.joinGroup q).derived = s.derived ∧ (s.joinGroup q).sent = s.sent ∧
    (s.joinGroup q).dirty = s.dirty ∧ (s.joinGroup q).links = s.links ∧ (s.joinGroup q).ports = s.ports ∧
    (s.joinGroup q).deskTime = s.deskTime ∧ (s.joinGroup q).mask = s.mask ∧
    (s.joinGroup q).pollInterval = s.pollInterval ∧ (s.joinGroup q).yieldWait = s.yieldWait ∧
    (s.joinGroup q).resetLow = s.resetLow ∧ (s.joinGroup q).pending = s.pending := by
  unfold State.joinGroup; repeat' (first | (split) | (refine ⟨?_, ?_⟩) | rfl)

@[simp] theorem State.bindTo_frame (h : Port) (a : AttrSet) (q : KeyPos) :
    (s.bindTo h a q).held = s.held ∧ (s.bindTo h a q).profiles = s.profiles ∧ (s.bindTo h a q).groups = s.groups ∧
    (s.bindTo h a q).asks = s.asks ∧ (s.bindTo h a q).presence = s.presence ∧ (s.bindTo h a q).queues = s.queues ∧
    (s.bindTo h a q).noteLow = s.noteLow ∧ (s.bindTo h a q).derived = s.derived ∧ (s.bindTo h a q).sent = s.sent ∧
    (s.bindTo h a q).dirty = s.dirty ∧ (s.bindTo h a q).links = s.links ∧ (s.bindTo h a q).ports = s.ports ∧
    (s.bindTo h a q).deskTime = s.deskTime ∧ (s.bindTo h a q).mask = s.mask ∧
    (s.bindTo h a q).pollInterval = s.pollInterval ∧ (s.bindTo h a q).yieldWait = s.yieldWait ∧
    (s.bindTo h a q).resetLow = s.resetLow ∧ (s.bindTo h a q).pending = s.pending := by
  simp [State.bindTo]

@[simp] theorem State.unbind_frame (q : KeyPos) :
    (s.unbind q).held = s.held ∧ (s.unbind q).profiles = s.profiles ∧ (s.unbind q).groups = s.groups ∧
    (s.unbind q).asks = s.asks ∧ (s.unbind q).presence = s.presence ∧ (s.unbind q).queues = s.queues ∧
    (s.unbind q).noteLow = s.noteLow ∧ (s.unbind q).derived = s.derived ∧ (s.unbind q).sent = s.sent ∧
    (s.unbind q).dirty = s.dirty ∧ (s.unbind q).links = s.links ∧ (s.unbind q).ports = s.ports ∧
    (s.unbind q).deskTime = s.deskTime ∧ (s.unbind q).mask = s.mask ∧ (s.unbind q).pollInterval = s.pollInterval ∧
    (s.unbind q).yieldWait = s.yieldWait ∧ (s.unbind q).resetLow = s.resetLow ∧ (s.unbind q).pending = s.pending := by
  simp [State.unbind]

@[simp] theorem State.acquire_frame (h : Port) (a : AttrSet) (q : KeyPos) :
    (s.acquire h a q).held = s.held ∧ (s.acquire h a q).profiles = s.profiles ∧ (s.acquire h a q).asks = s.asks ∧
    (s.acquire h a q).presence = s.presence ∧ (s.acquire h a q).queues = s.queues ∧
    (s.acquire h a q).noteLow = s.noteLow ∧ (s.acquire h a q).sent = s.sent ∧ (s.acquire h a q).links = s.links ∧
    (s.acquire h a q).ports = s.ports ∧ (s.acquire h a q).deskTime = s.deskTime ∧ (s.acquire h a q).mask = s.mask ∧
    (s.acquire h a q).pollInterval = s.pollInterval ∧ (s.acquire h a q).yieldWait = s.yieldWait ∧
    (s.acquire h a q).resetLow = s.resetLow ∧ (s.acquire h a q).pending = s.pending := by
  simp [State.acquire]

@[simp] theorem State.removeAsk_frame (e : Option AskId) :
    (s.removeAsk e).table = s.table ∧ (s.removeAsk e).held = s.held ∧ (s.removeAsk e).profiles = s.profiles ∧
    (s.removeAsk e).groups = s.groups ∧ (s.removeAsk e).presence = s.presence ∧ (s.removeAsk e).queues = s.queues ∧
    (s.removeAsk e).noteLow = s.noteLow ∧ (s.removeAsk e).derived = s.derived ∧ (s.removeAsk e).sent = s.sent ∧
    (s.removeAsk e).dirty = s.dirty ∧ (s.removeAsk e).links = s.links ∧ (s.removeAsk e).ports = s.ports ∧
    (s.removeAsk e).deskTime = s.deskTime ∧ (s.removeAsk e).mask = s.mask ∧
    (s.removeAsk e).pollInterval = s.pollInterval ∧ (s.removeAsk e).yieldWait = s.yieldWait ∧
    (s.removeAsk e).resetLow = s.resetLow ∧ (s.removeAsk e).pending = s.pending := by
  cases e <;> simp [State.removeAsk]

@[simp] theorem State.answerGranted_frame (p : Port) (q : KeyPos) :
    (s.answerGranted p q).table = s.table ∧ (s.answerGranted p q).held = s.held ∧
    (s.answerGranted p q).profiles = s.profiles ∧ (s.answerGranted p q).groups = s.groups ∧
    (s.answerGranted p q).asks = s.asks ∧ (s.answerGranted p q).presence = s.presence ∧
    (s.answerGranted p q).queues = s.queues ∧ (s.answerGranted p q).noteLow = s.noteLow ∧
    (s.answerGranted p q).derived = s.derived ∧ (s.answerGranted p q).sent = s.sent ∧
    (s.answerGranted p q).dirty = s.dirty ∧ (s.answerGranted p q).links = s.links ∧
    (s.answerGranted p q).deskTime = s.deskTime ∧ (s.answerGranted p q).mask = s.mask ∧
    (s.answerGranted p q).pollInterval = s.pollInterval ∧ (s.answerGranted p q).yieldWait = s.yieldWait ∧
    (s.answerGranted p q).resetLow = s.resetLow ∧ (s.answerGranted p q).pending = s.pending := by
  simp [State.answerGranted]

@[simp] theorem State.grant_frame (e : Option AskId) (p h : Port) (a : AttrSet) (q : KeyPos) :
    (s.grant e p h a q).profiles = s.profiles ∧ (s.grant e p h a q).presence = s.presence ∧
    (s.grant e p h a q).sent = s.sent ∧ (s.grant e p h a q).links = s.links ∧
    (s.grant e p h a q).deskTime = s.deskTime ∧ (s.grant e p h a q).mask = s.mask ∧
    (s.grant e p h a q).pollInterval = s.pollInterval ∧ (s.grant e p h a q).yieldWait = s.yieldWait ∧
    (s.grant e p h a q).resetLow = s.resetLow ∧ (s.grant e p h a q).pending = s.pending := by
  simp [State.grant]

@[simp] theorem State.grantReleased_frame (n : Bool) (b : Binding) (q : KeyPos) :
    (s.grantReleased n b q).held = s.held ∧ (s.grantReleased n b q).profiles = s.profiles ∧
    (s.grantReleased n b q).presence = s.presence ∧ (s.grantReleased n b q).sent = s.sent ∧
    (s.grantReleased n b q).links = s.links ∧ (s.grantReleased n b q).deskTime = s.deskTime ∧
    (s.grantReleased n b q).mask = s.mask ∧ (s.grantReleased n b q).pollInterval = s.pollInterval ∧
    (s.grantReleased n b q).yieldWait = s.yieldWait ∧ (s.grantReleased n b q).resetLow = s.resetLow ∧
    (s.grantReleased n b q).pending = s.pending := by
  unfold State.grantReleased; repeat' (first | (split) | (refine ⟨?_, ?_⟩) | rfl | simp)

@[simp] theorem State.releasePos_frame (n : Bool) (q : KeyPos) :
    (s.releasePos n q).profiles = s.profiles ∧ (s.releasePos n q).presence = s.presence ∧
    (s.releasePos n q).sent = s.sent ∧ (s.releasePos n q).links = s.links ∧
    (s.releasePos n q).deskTime = s.deskTime ∧ (s.releasePos n q).mask = s.mask ∧
    (s.releasePos n q).pollInterval = s.pollInterval ∧ (s.releasePos n q).yieldWait = s.yieldWait ∧
    (s.releasePos n q).resetLow = s.resetLow ∧ (s.releasePos n q).pending = s.pending := by
  simp [State.releasePos]

@[simp] theorem State.endAsk_frame (i : AskId) (a : Ask) (st : StatusCode) :
    (s.endAsk i a st).table = s.table ∧ (s.endAsk i a st).held = s.held ∧ (s.endAsk i a st).profiles = s.profiles ∧
    (s.endAsk i a st).groups = s.groups ∧ (s.endAsk i a st).presence = s.presence ∧
    (s.endAsk i a st).queues = s.queues ∧ (s.endAsk i a st).noteLow = s.noteLow ∧
    (s.endAsk i a st).derived = s.derived ∧ (s.endAsk i a st).sent = s.sent ∧ (s.endAsk i a st).dirty = s.dirty ∧
    (s.endAsk i a st).links = s.links ∧ (s.endAsk i a st).deskTime = s.deskTime ∧ (s.endAsk i a st).mask = s.mask ∧
    (s.endAsk i a st).pollInterval = s.pollInterval ∧ (s.endAsk i a st).yieldWait = s.yieldWait ∧
    (s.endAsk i a st).resetLow = s.resetLow ∧ (s.endAsk i a st).pending = s.pending := by
  simp [State.endAsk]

@[simp] theorem State.closeAsk_frame (i : AskId) (a : Ask) (st : StatusCode) (w : CloseReason) (b : Binding) :
    (s.closeAsk i a st w b).table = s.table ∧ (s.closeAsk i a st w b).held = s.held ∧
    (s.closeAsk i a st w b).profiles = s.profiles ∧ (s.closeAsk i a st w b).groups = s.groups ∧
    (s.closeAsk i a st w b).presence = s.presence ∧ (s.closeAsk i a st w b).derived = s.derived ∧
    (s.closeAsk i a st w b).sent = s.sent ∧ (s.closeAsk i a st w b).dirty = s.dirty ∧
    (s.closeAsk i a st w b).links = s.links ∧ (s.closeAsk i a st w b).deskTime = s.deskTime ∧
    (s.closeAsk i a st w b).mask = s.mask ∧ (s.closeAsk i a st w b).pollInterval = s.pollInterval ∧
    (s.closeAsk i a st w b).yieldWait = s.yieldWait ∧ (s.closeAsk i a st w b).resetLow = s.resetLow ∧
    (s.closeAsk i a st w b).pending = s.pending := by
  simp [State.closeAsk]

@[simp] theorem State.endAskOn_frame (q : KeyPos) (st : StatusCode) :
    (s.endAskOn q st).table = s.table ∧ (s.endAskOn q st).held = s.held ∧ (s.endAskOn q st).profiles = s.profiles ∧
    (s.endAskOn q st).groups = s.groups ∧ (s.endAskOn q st).presence = s.presence ∧
    (s.endAskOn q st).queues = s.queues ∧ (s.endAskOn q st).noteLow = s.noteLow ∧
    (s.endAskOn q st).derived = s.derived ∧ (s.endAskOn q st).sent = s.sent ∧ (s.endAskOn q st).dirty = s.dirty ∧
    (s.endAskOn q st).links = s.links ∧ (s.endAskOn q st).deskTime = s.deskTime ∧ (s.endAskOn q st).mask = s.mask ∧
    (s.endAskOn q st).pollInterval = s.pollInterval ∧ (s.endAskOn q st).yieldWait = s.yieldWait ∧
    (s.endAskOn q st).resetLow = s.resetLow ∧ (s.endAskOn q st).pending = s.pending := by
  unfold State.endAskOn; repeat' (first | (split) | (refine ⟨?_, ?_⟩) | rfl | simp)

@[simp] theorem State.resetAskOn_frame (q : KeyPos) (b : Binding) :
    (s.resetAskOn q b).table = s.table ∧ (s.resetAskOn q b).held = s.held ∧
    (s.resetAskOn q b).profiles = s.profiles ∧ (s.resetAskOn q b).groups = s.groups ∧
    (s.resetAskOn q b).presence = s.presence ∧ (s.resetAskOn q b).derived = s.derived ∧
    (s.resetAskOn q b).sent = s.sent ∧ (s.resetAskOn q b).dirty = s.dirty ∧ (s.resetAskOn q b).links = s.links ∧
    (s.resetAskOn q b).deskTime = s.deskTime ∧ (s.resetAskOn q b).mask = s.mask ∧
    (s.resetAskOn q b).pollInterval = s.pollInterval ∧ (s.resetAskOn q b).yieldWait = s.yieldWait ∧
    (s.resetAskOn q b).resetLow = s.resetLow ∧ (s.resetAskOn q b).pending = s.pending := by
  unfold State.resetAskOn; repeat' (first | (split) | (refine ⟨?_, ?_⟩) | rfl | simp)

@[simp] theorem State.beginOrder_frame (n : LinkId) (o : LinkOrder) :
    (s.beginOrder n o).table = s.table ∧ (s.beginOrder n o).held = s.held ∧
    (s.beginOrder n o).profiles = s.profiles ∧ (s.beginOrder n o).groups = s.groups ∧
    (s.beginOrder n o).asks = s.asks ∧ (s.beginOrder n o).presence = s.presence ∧
    (s.beginOrder n o).queues = s.queues ∧ (s.beginOrder n o).noteLow = s.noteLow ∧
    (s.beginOrder n o).derived = s.derived ∧ (s.beginOrder n o).sent = s.sent ∧
    (s.beginOrder n o).dirty = s.dirty ∧ (s.beginOrder n o).ports = s.ports ∧
    (s.beginOrder n o).deskTime = s.deskTime ∧ (s.beginOrder n o).mask = s.mask ∧
    (s.beginOrder n o).pollInterval = s.pollInterval ∧ (s.beginOrder n o).yieldWait = s.yieldWait ∧
    (s.beginOrder n o).resetLow = s.resetLow ∧ (s.beginOrder n o).pending = s.pending := by
  simp [State.beginOrder]

@[simp] theorem State.replacePos_frame (a : AttrSet) (q : KeyPos) :
    (s.replacePos a q).held = s.held ∧ (s.replacePos a q).profiles = s.profiles ∧
    (s.replacePos a q).asks = s.asks ∧ (s.replacePos a q).presence = s.presence ∧
    (s.replacePos a q).sent = s.sent ∧ (s.replacePos a q).links = s.links ∧ (s.replacePos a q).ports = s.ports ∧
    (s.replacePos a q).deskTime = s.deskTime ∧ (s.replacePos a q).mask = s.mask ∧
    (s.replacePos a q).pollInterval = s.pollInterval ∧ (s.replacePos a q).yieldWait = s.yieldWait ∧
    (s.replacePos a q).resetLow = s.resetLow ∧ (s.replacePos a q).pending = s.pending := by
  unfold State.replacePos; repeat' (first | (split) | (refine ⟨?_, ?_⟩) | rfl | simp)

@[simp] theorem State.setHold_frame (h : Hold) (q : KeyPos) :
    (s.setHold h q).held = s.held ∧ (s.setHold h q).profiles = s.profiles ∧ (s.setHold h q).groups = s.groups ∧
    (s.setHold h q).asks = s.asks ∧ (s.setHold h q).presence = s.presence ∧ (s.setHold h q).queues = s.queues ∧
    (s.setHold h q).noteLow = s.noteLow ∧ (s.setHold h q).derived = s.derived ∧ (s.setHold h q).sent = s.sent ∧
    (s.setHold h q).dirty = s.dirty ∧ (s.setHold h q).links = s.links ∧ (s.setHold h q).ports = s.ports ∧
    (s.setHold h q).deskTime = s.deskTime ∧ (s.setHold h q).mask = s.mask ∧
    (s.setHold h q).pollInterval = s.pollInterval ∧ (s.setHold h q).yieldWait = s.yieldWait ∧
    (s.setHold h q).resetLow = s.resetLow ∧ (s.setHold h q).pending = s.pending := by
  simp [State.setHold]

@[simp] theorem State.clearPos_frame (q : KeyPos) :
    (s.clearPos q).profiles = s.profiles ∧ (s.clearPos q).groups = s.groups ∧
    (s.clearPos q).presence = s.presence ∧ (s.clearPos q).sent = s.sent ∧ (s.clearPos q).links = s.links ∧
    (s.clearPos q).deskTime = s.deskTime ∧ (s.clearPos q).mask = s.mask ∧
    (s.clearPos q).pollInterval = s.pollInterval ∧ (s.clearPos q).yieldWait = s.yieldWait ∧
    (s.clearPos q).resetLow = s.resetLow ∧ (s.clearPos q).pending = s.pending := by
  unfold State.clearPos; repeat' (first | (split) | (refine ⟨?_, ?_⟩) | rfl | simp)

@[simp] theorem State.freeGroups_frame  :
    (s.freeGroups).table = s.table ∧ (s.freeGroups).held = s.held ∧ (s.freeGroups).profiles = s.profiles ∧
    (s.freeGroups).asks = s.asks ∧ (s.freeGroups).presence = s.presence ∧ (s.freeGroups).queues = s.queues ∧
    (s.freeGroups).noteLow = s.noteLow ∧ (s.freeGroups).derived = s.derived ∧ (s.freeGroups).sent = s.sent ∧
    (s.freeGroups).dirty = s.dirty ∧ (s.freeGroups).links = s.links ∧ (s.freeGroups).ports = s.ports ∧
    (s.freeGroups).deskTime = s.deskTime ∧ (s.freeGroups).mask = s.mask ∧
    (s.freeGroups).pollInterval = s.pollInterval ∧ (s.freeGroups).yieldWait = s.yieldWait ∧
    (s.freeGroups).resetLow = s.resetLow ∧ (s.freeGroups).pending = s.pending := by
  simp [State.freeGroups]

@[simp] theorem State.freeGroupsOf_frame (p : Port) :
    (s.freeGroupsOf p).table = s.table ∧ (s.freeGroupsOf p).held = s.held ∧
    (s.freeGroupsOf p).profiles = s.profiles ∧ (s.freeGroupsOf p).asks = s.asks ∧
    (s.freeGroupsOf p).presence = s.presence ∧ (s.freeGroupsOf p).queues = s.queues ∧
    (s.freeGroupsOf p).noteLow = s.noteLow ∧ (s.freeGroupsOf p).derived = s.derived ∧
    (s.freeGroupsOf p).sent = s.sent ∧ (s.freeGroupsOf p).dirty = s.dirty ∧ (s.freeGroupsOf p).links = s.links ∧
    (s.freeGroupsOf p).ports = s.ports ∧ (s.freeGroupsOf p).deskTime = s.deskTime ∧
    (s.freeGroupsOf p).mask = s.mask ∧ (s.freeGroupsOf p).pollInterval = s.pollInterval ∧
    (s.freeGroupsOf p).yieldWait = s.yieldWait ∧ (s.freeGroupsOf p).resetLow = s.resetLow ∧
    (s.freeGroupsOf p).pending = s.pending := by
  simp [State.freeGroupsOf]

@[simp] theorem State.cancelAsk_frame (p : Port) :
    (s.cancelAsk p).table = s.table ∧ (s.cancelAsk p).held = s.held ∧ (s.cancelAsk p).profiles = s.profiles ∧
    (s.cancelAsk p).groups = s.groups ∧ (s.cancelAsk p).presence = s.presence ∧
    (s.cancelAsk p).derived = s.derived ∧ (s.cancelAsk p).sent = s.sent ∧ (s.cancelAsk p).dirty = s.dirty ∧
    (s.cancelAsk p).links = s.links ∧ (s.cancelAsk p).deskTime = s.deskTime ∧ (s.cancelAsk p).mask = s.mask ∧
    (s.cancelAsk p).pollInterval = s.pollInterval ∧ (s.cancelAsk p).yieldWait = s.yieldWait ∧
    (s.cancelAsk p).resetLow = s.resetLow ∧ (s.cancelAsk p).pending = s.pending := by
  unfold State.cancelAsk; repeat' (first | (split) | (refine ⟨?_, ?_⟩) | rfl | simp)

@[simp] theorem State.clockByte_frame (p : Port) (t : Transaction) (r : Reading) (b : Byte) :
    (s.clockByte p t r b).table = s.table ∧ (s.clockByte p t r b).held = s.held ∧
    (s.clockByte p t r b).profiles = s.profiles ∧ (s.clockByte p t r b).groups = s.groups ∧
    (s.clockByte p t r b).asks = s.asks ∧ (s.clockByte p t r b).presence = s.presence ∧
    (s.clockByte p t r b).queues = s.queues ∧ (s.clockByte p t r b).noteLow = s.noteLow ∧
    (s.clockByte p t r b).derived = s.derived ∧ (s.clockByte p t r b).sent = s.sent ∧
    (s.clockByte p t r b).dirty = s.dirty ∧ (s.clockByte p t r b).links = s.links ∧
    (s.clockByte p t r b).deskTime = s.deskTime ∧ (s.clockByte p t r b).mask = s.mask ∧
    (s.clockByte p t r b).pollInterval = s.pollInterval ∧ (s.clockByte p t r b).yieldWait = s.yieldWait ∧
    (s.clockByte p t r b).resetLow = s.resetLow ∧ (s.clockByte p t r b).pending = s.pending := by
  simp [State.clockByte]

@[simp] theorem State.grantIfHeldBy_frame (p : Port) (i : AskId) :
    (s.grantIfHeldBy p i).profiles = s.profiles ∧ (s.grantIfHeldBy p i).presence = s.presence ∧
    (s.grantIfHeldBy p i).sent = s.sent ∧ (s.grantIfHeldBy p i).links = s.links ∧
    (s.grantIfHeldBy p i).deskTime = s.deskTime ∧ (s.grantIfHeldBy p i).mask = s.mask ∧
    (s.grantIfHeldBy p i).pollInterval = s.pollInterval ∧ (s.grantIfHeldBy p i).yieldWait = s.yieldWait ∧
    (s.grantIfHeldBy p i).resetLow = s.resetLow ∧ (s.grantIfHeldBy p i).pending = s.pending := by
  unfold State.grantIfHeldBy; repeat' (first | (split) | (refine ⟨?_, ?_⟩) | rfl | simp)

@[simp] theorem State.makeEntry_frame (p : Port) (q : KeyPos) (a : AttrSet) (h : Port) :
    (s.makeEntry p q a h).table = s.table ∧ (s.makeEntry p q a h).held = s.held ∧
    (s.makeEntry p q a h).profiles = s.profiles ∧ (s.makeEntry p q a h).groups = s.groups ∧
    (s.makeEntry p q a h).presence = s.presence ∧ (s.makeEntry p q a h).derived = s.derived ∧
    (s.makeEntry p q a h).sent = s.sent ∧ (s.makeEntry p q a h).dirty = s.dirty ∧
    (s.makeEntry p q a h).links = s.links ∧ (s.makeEntry p q a h).ports = s.ports ∧
    (s.makeEntry p q a h).deskTime = s.deskTime ∧ (s.makeEntry p q a h).mask = s.mask ∧
    (s.makeEntry p q a h).pollInterval = s.pollInterval ∧ (s.makeEntry p q a h).yieldWait = s.yieldWait ∧
    (s.makeEntry p q a h).resetLow = s.resetLow ∧ (s.makeEntry p q a h).pending = s.pending := by
  unfold State.makeEntry; repeat' (first | (split) | (refine ⟨?_, ?_⟩) | rfl)

@[simp] theorem State.takeAsk_frame (p : Port) (w : Half) (r : RawAttrs) :
    (s.takeAsk p w r).profiles = s.profiles ∧ (s.takeAsk p w r).presence = s.presence ∧
    (s.takeAsk p w r).sent = s.sent ∧ (s.takeAsk p w r).links = s.links ∧ (s.takeAsk p w r).deskTime = s.deskTime ∧
    (s.takeAsk p w r).mask = s.mask ∧ (s.takeAsk p w r).pollInterval = s.pollInterval ∧
    (s.takeAsk p w r).yieldWait = s.yieldWait ∧ (s.takeAsk p w r).resetLow = s.resetLow ∧
    (s.takeAsk p w r).pending = s.pending := by
  unfold State.takeAsk; repeat' (first | (split) | (refine ⟨?_, ?_⟩) | rfl | simp)

@[simp] theorem State.takeReply_frame (p : Port) (i d : Byte) :
    (s.takeReply p i d).profiles = s.profiles ∧ (s.takeReply p i d).presence = s.presence ∧
    (s.takeReply p i d).sent = s.sent ∧ (s.takeReply p i d).links = s.links ∧
    (s.takeReply p i d).deskTime = s.deskTime ∧ (s.takeReply p i d).mask = s.mask ∧
    (s.takeReply p i d).pollInterval = s.pollInterval ∧ (s.takeReply p i d).yieldWait = s.yieldWait ∧
    (s.takeReply p i d).resetLow = s.resetLow ∧ (s.takeReply p i d).pending = s.pending := by
  unfold State.takeReply; repeat' (first | (split) | (refine ⟨?_, ?_⟩) | rfl | simp)

@[simp] theorem State.deselect_frame (g : GroupId) (x : SelGroup) :
    (s.deselect g x).table = s.table ∧ (s.deselect g x).held = s.held ∧ (s.deselect g x).profiles = s.profiles ∧
    (s.deselect g x).asks = s.asks ∧ (s.deselect g x).presence = s.presence ∧ (s.deselect g x).queues = s.queues ∧
    (s.deselect g x).noteLow = s.noteLow ∧ (s.deselect g x).sent = s.sent ∧ (s.deselect g x).links = s.links ∧
    (s.deselect g x).ports = s.ports ∧ (s.deselect g x).deskTime = s.deskTime ∧ (s.deselect g x).mask = s.mask ∧
    (s.deselect g x).pollInterval = s.pollInterval ∧ (s.deselect g x).yieldWait = s.yieldWait ∧
    (s.deselect g x).resetLow = s.resetLow ∧ (s.deselect g x).pending = s.pending := by
  unfold State.deselect; repeat' (first | (split) | (refine ⟨?_, ?_⟩) | rfl)

@[simp] theorem State.takeRepeat_frame (q : KeyPos) (r : HeldRecord) (o : Opened) (f : Profile) (d : Time) (p : Nat) :
    (s.takeRepeat q r o f d p).table = s.table ∧ (s.takeRepeat q r o f d p).profiles = s.profiles ∧
    (s.takeRepeat q r o f d p).groups = s.groups ∧ (s.takeRepeat q r o f d p).asks = s.asks ∧
    (s.takeRepeat q r o f d p).presence = s.presence ∧ (s.takeRepeat q r o f d p).derived = s.derived ∧
    (s.takeRepeat q r o f d p).sent = s.sent ∧ (s.takeRepeat q r o f d p).dirty = s.dirty ∧
    (s.takeRepeat q r o f d p).links = s.links ∧ (s.takeRepeat q r o f d p).ports = s.ports ∧
    (s.takeRepeat q r o f d p).deskTime = s.deskTime ∧ (s.takeRepeat q r o f d p).mask = s.mask ∧
    (s.takeRepeat q r o f d p).pollInterval = s.pollInterval ∧ (s.takeRepeat q r o f d p).yieldWait = s.yieldWait ∧
    (s.takeRepeat q r o f d p).resetLow = s.resetLow ∧ (s.takeRepeat q r o f d p).pending = s.pending := by
  simp [State.takeRepeat]

@[simp] theorem State.dueAt_frame (q : KeyPos) (r : HeldRecord) (d : Time) (p : Profile → Nat) :
    (s.dueAt q r d p).table = s.table ∧ (s.dueAt q r d p).profiles = s.profiles ∧
    (s.dueAt q r d p).groups = s.groups ∧ (s.dueAt q r d p).asks = s.asks ∧
    (s.dueAt q r d p).presence = s.presence ∧ (s.dueAt q r d p).derived = s.derived ∧
    (s.dueAt q r d p).sent = s.sent ∧ (s.dueAt q r d p).dirty = s.dirty ∧ (s.dueAt q r d p).links = s.links ∧
    (s.dueAt q r d p).ports = s.ports ∧ (s.dueAt q r d p).deskTime = s.deskTime ∧ (s.dueAt q r d p).mask = s.mask ∧
    (s.dueAt q r d p).pollInterval = s.pollInterval ∧ (s.dueAt q r d p).yieldWait = s.yieldWait ∧
    (s.dueAt q r d p).resetLow = s.resetLow ∧ (s.dueAt q r d p).pending = s.pending := by
  unfold State.dueAt; repeat' (first | (split) | (refine ⟨?_, ?_⟩) | rfl)

@[simp] theorem State.openRecord_frame (q : KeyPos) (h : Port) (d : Bool) (ph : Phase) (k : NoticeKind) (e : Half) (r : Bool) :
    (s.openRecord q h d ph k e r).table = s.table ∧ (s.openRecord q h d ph k e r).profiles = s.profiles ∧
    (s.openRecord q h d ph k e r).groups = s.groups ∧ (s.openRecord q h d ph k e r).asks = s.asks ∧
    (s.openRecord q h d ph k e r).presence = s.presence ∧ (s.openRecord q h d ph k e r).derived = s.derived ∧
    (s.openRecord q h d ph k e r).sent = s.sent ∧ (s.openRecord q h d ph k e r).dirty = s.dirty ∧
    (s.openRecord q h d ph k e r).links = s.links ∧ (s.openRecord q h d ph k e r).ports = s.ports ∧
    (s.openRecord q h d ph k e r).deskTime = s.deskTime ∧ (s.openRecord q h d ph k e r).mask = s.mask ∧
    (s.openRecord q h d ph k e r).pollInterval = s.pollInterval ∧
    (s.openRecord q h d ph k e r).yieldWait = s.yieldWait ∧ (s.openRecord q h d ph k e r).resetLow = s.resetLow ∧
    (s.openRecord q h d ph k e r).pending = s.pending := by
  simp [State.openRecord]

@[simp] theorem State.pressToggle_frame (q : KeyPos) (h : Port) (l r : Bool) :
    (s.pressToggle q h l r).profiles = s.profiles ∧ (s.pressToggle q h l r).groups = s.groups ∧
    (s.pressToggle q h l r).asks = s.asks ∧ (s.pressToggle q h l r).presence = s.presence ∧
    (s.pressToggle q h l r).derived = s.derived ∧ (s.pressToggle q h l r).sent = s.sent ∧
    (s.pressToggle q h l r).dirty = s.dirty ∧ (s.pressToggle q h l r).links = s.links ∧
    (s.pressToggle q h l r).ports = s.ports ∧ (s.pressToggle q h l r).deskTime = s.deskTime ∧
    (s.pressToggle q h l r).mask = s.mask ∧ (s.pressToggle q h l r).pollInterval = s.pollInterval ∧
    (s.pressToggle q h l r).yieldWait = s.yieldWait ∧ (s.pressToggle q h l r).resetLow = s.resetLow ∧
    (s.pressToggle q h l r).pending = s.pending := by
  simp [State.pressToggle]

@[simp] theorem State.pressSelect_frame (q : KeyPos) (h : Port) (g : GroupId) (r : Bool) :
    (s.pressSelect q h g r).table = s.table ∧ (s.pressSelect q h g r).profiles = s.profiles ∧
    (s.pressSelect q h g r).asks = s.asks ∧ (s.pressSelect q h g r).presence = s.presence ∧
    (s.pressSelect q h g r).sent = s.sent ∧ (s.pressSelect q h g r).links = s.links ∧
    (s.pressSelect q h g r).ports = s.ports ∧ (s.pressSelect q h g r).deskTime = s.deskTime ∧
    (s.pressSelect q h g r).mask = s.mask ∧ (s.pressSelect q h g r).pollInterval = s.pollInterval ∧
    (s.pressSelect q h g r).yieldWait = s.yieldWait ∧ (s.pressSelect q h g r).resetLow = s.resetLow ∧
    (s.pressSelect q h g r).pending = s.pending := by
  unfold State.pressSelect; repeat' (first | (split) | (refine ⟨?_, ?_⟩) | rfl)

@[simp] theorem State.pressClass_frame (q : KeyPos) (h : Port) (r : Bool) :
    (s.pressClass q h r).profiles = s.profiles ∧ (s.pressClass q h r).asks = s.asks ∧
    (s.pressClass q h r).presence = s.presence ∧ (s.pressClass q h r).sent = s.sent ∧
    (s.pressClass q h r).links = s.links ∧ (s.pressClass q h r).ports = s.ports ∧
    (s.pressClass q h r).deskTime = s.deskTime ∧ (s.pressClass q h r).mask = s.mask ∧
    (s.pressClass q h r).pollInterval = s.pollInterval ∧ (s.pressClass q h r).yieldWait = s.yieldWait ∧
    (s.pressClass q h r).resetLow = s.resetLow ∧ (s.pressClass q h r).pending = s.pending := by
  unfold State.pressClass; repeat' (first | (split) | (refine ⟨?_, ?_⟩) | rfl | simp)

@[simp] theorem State.pressKey_frame (r : Bool) (q : KeyPos) :
    (s.pressKey r q).profiles = s.profiles ∧ (s.pressKey r q).asks = s.asks ∧
    (s.pressKey r q).presence = s.presence ∧ (s.pressKey r q).sent = s.sent ∧ (s.pressKey r q).links = s.links ∧
    (s.pressKey r q).ports = s.ports ∧ (s.pressKey r q).deskTime = s.deskTime ∧ (s.pressKey r q).mask = s.mask ∧
    (s.pressKey r q).pollInterval = s.pollInterval ∧ (s.pressKey r q).yieldWait = s.yieldWait ∧
    (s.pressKey r q).resetLow = s.resetLow ∧ (s.pressKey r q).pending = s.pending := by
  unfold State.pressKey; repeat' (first | (split) | (refine ⟨?_, ?_⟩) | rfl | simp)

@[simp] theorem State.reconcileReleases_frame (n : LinkId) (k : BitVec 128) :
    (s.reconcileReleases n k).table = s.table ∧ (s.reconcileReleases n k).profiles = s.profiles ∧
    (s.reconcileReleases n k).groups = s.groups ∧ (s.reconcileReleases n k).asks = s.asks ∧
    (s.reconcileReleases n k).presence = s.presence ∧ (s.reconcileReleases n k).sent = s.sent ∧
    (s.reconcileReleases n k).links = s.links ∧ (s.reconcileReleases n k).ports = s.ports ∧
    (s.reconcileReleases n k).deskTime = s.deskTime ∧ (s.reconcileReleases n k).mask = s.mask ∧
    (s.reconcileReleases n k).pollInterval = s.pollInterval ∧ (s.reconcileReleases n k).yieldWait = s.yieldWait ∧
    (s.reconcileReleases n k).resetLow = s.resetLow ∧ (s.reconcileReleases n k).pending = s.pending := by
  unfold State.reconcileReleases; refine ⟨?_, ?_, ?_, ?_, ?_, ?_, ?_, ?_, ?_, ?_, ?_, ?_, ?_, ?_⟩ <;> exact foldl_keeps _ _ (by simp) _ _

@[simp] theorem State.reconcilePresses_frame (n : LinkId) (c : Nat) (k : BitVec 128) :
    (s.reconcilePresses n c k).profiles = s.profiles ∧ (s.reconcilePresses n c k).asks = s.asks ∧
    (s.reconcilePresses n c k).presence = s.presence ∧ (s.reconcilePresses n c k).sent = s.sent ∧
    (s.reconcilePresses n c k).links = s.links ∧ (s.reconcilePresses n c k).ports = s.ports ∧
    (s.reconcilePresses n c k).deskTime = s.deskTime ∧ (s.reconcilePresses n c k).mask = s.mask ∧
    (s.reconcilePresses n c k).pollInterval = s.pollInterval ∧ (s.reconcilePresses n c k).yieldWait = s.yieldWait ∧
    (s.reconcilePresses n c k).resetLow = s.resetLow ∧ (s.reconcilePresses n c k).pending = s.pending := by
  unfold State.reconcilePresses; refine ⟨?_, ?_, ?_, ?_, ?_, ?_, ?_, ?_, ?_, ?_, ?_, ?_⟩ <;> exact foldl_keeps _ _ (by simp) _ _

@[simp] theorem State.reconcile_frame (n : LinkId) (c : Nat) (k : BitVec 128) :
    (s.reconcile n c k).profiles = s.profiles ∧ (s.reconcile n c k).asks = s.asks ∧
    (s.reconcile n c k).presence = s.presence ∧ (s.reconcile n c k).sent = s.sent ∧
    (s.reconcile n c k).links = s.links ∧ (s.reconcile n c k).ports = s.ports ∧
    (s.reconcile n c k).deskTime = s.deskTime ∧ (s.reconcile n c k).mask = s.mask ∧
    (s.reconcile n c k).pollInterval = s.pollInterval ∧ (s.reconcile n c k).yieldWait = s.yieldWait ∧
    (s.reconcile n c k).resetLow = s.resetLow ∧ (s.reconcile n c k).pending = s.pending := by
  simp [State.reconcile]

@[simp] theorem State.releasePanel_frame (n : LinkId) :
    (s.releasePanel n).table = s.table ∧ (s.releasePanel n).profiles = s.profiles ∧
    (s.releasePanel n).groups = s.groups ∧ (s.releasePanel n).asks = s.asks ∧
    (s.releasePanel n).presence = s.presence ∧ (s.releasePanel n).sent = s.sent ∧
    (s.releasePanel n).links = s.links ∧ (s.releasePanel n).ports = s.ports ∧
    (s.releasePanel n).deskTime = s.deskTime ∧ (s.releasePanel n).mask = s.mask ∧
    (s.releasePanel n).pollInterval = s.pollInterval ∧ (s.releasePanel n).yieldWait = s.yieldWait ∧
    (s.releasePanel n).resetLow = s.resetLow ∧ (s.releasePanel n).pending = s.pending := by
  unfold State.releasePanel; refine ⟨?_, ?_, ?_, ?_, ?_, ?_, ?_, ?_, ?_, ?_, ?_, ?_, ?_, ?_⟩ <;> exact foldl_keeps _ _ (by simp) _ _

@[simp] theorem State.setSession_frame (n : LinkId) (x : Session) :
    (s.setSession n x).table = s.table ∧ (s.setSession n x).held = s.held ∧
    (s.setSession n x).profiles = s.profiles ∧ (s.setSession n x).groups = s.groups ∧
    (s.setSession n x).asks = s.asks ∧ (s.setSession n x).presence = s.presence ∧
    (s.setSession n x).queues = s.queues ∧ (s.setSession n x).noteLow = s.noteLow ∧
    (s.setSession n x).derived = s.derived ∧ (s.setSession n x).sent = s.sent ∧
    (s.setSession n x).dirty = s.dirty ∧ (s.setSession n x).ports = s.ports ∧
    (s.setSession n x).deskTime = s.deskTime ∧ (s.setSession n x).mask = s.mask ∧
    (s.setSession n x).pollInterval = s.pollInterval ∧ (s.setSession n x).yieldWait = s.yieldWait ∧
    (s.setSession n x).resetLow = s.resetLow ∧ (s.setSession n x).pending = s.pending := by
  simp [State.setSession]

@[simp] theorem State.leaveUp_frame (n : LinkId) (x : Session) :
    (s.leaveUp n x).table = s.table ∧ (s.leaveUp n x).held = s.held ∧
    (s.leaveUp n x).profiles = s.profiles ∧ (s.leaveUp n x).groups = s.groups ∧
    (s.leaveUp n x).asks = s.asks ∧ (s.leaveUp n x).presence = s.presence ∧
    (s.leaveUp n x).queues = s.queues ∧ (s.leaveUp n x).noteLow = s.noteLow ∧
    (s.leaveUp n x).derived = s.derived ∧ (s.leaveUp n x).sent = s.sent ∧
    (s.leaveUp n x).dirty = s.dirty ∧ (s.leaveUp n x).ports = s.ports ∧
    (s.leaveUp n x).deskTime = s.deskTime ∧ (s.leaveUp n x).mask = s.mask ∧
    (s.leaveUp n x).pollInterval = s.pollInterval ∧ (s.leaveUp n x).yieldWait = s.yieldWait ∧
    (s.leaveUp n x).resetLow = s.resetLow ∧ (s.leaveUp n x).pending = s.pending := by
  simp [State.leaveUp]

@[simp] theorem State.probe_frame (n : LinkId) :
    (s.probe n).table = s.table ∧ (s.probe n).held = s.held ∧ (s.probe n).profiles = s.profiles ∧
    (s.probe n).groups = s.groups ∧ (s.probe n).asks = s.asks ∧ (s.probe n).presence = s.presence ∧
    (s.probe n).queues = s.queues ∧ (s.probe n).noteLow = s.noteLow ∧ (s.probe n).derived = s.derived ∧
    (s.probe n).sent = s.sent ∧ (s.probe n).dirty = s.dirty ∧ (s.probe n).ports = s.ports ∧
    (s.probe n).deskTime = s.deskTime ∧ (s.probe n).mask = s.mask ∧ (s.probe n).pollInterval = s.pollInterval ∧
    (s.probe n).yieldWait = s.yieldWait ∧ (s.probe n).resetLow = s.resetLow ∧ (s.probe n).pending = s.pending := by
  simp [State.probe]

@[simp] theorem State.endSession_frame (n : LinkId) (x : Session) :
    (s.endSession n x).table = s.table ∧ (s.endSession n x).profiles = s.profiles ∧
    (s.endSession n x).groups = s.groups ∧ (s.endSession n x).asks = s.asks ∧
    (s.endSession n x).presence = s.presence ∧ (s.endSession n x).ports = s.ports ∧
    (s.endSession n x).deskTime = s.deskTime ∧ (s.endSession n x).mask = s.mask ∧
    (s.endSession n x).pollInterval = s.pollInterval ∧ (s.endSession n x).yieldWait = s.yieldWait ∧
    (s.endSession n x).resetLow = s.resetLow ∧ (s.endSession n x).pending = s.pending := by
  simp [State.endSession]

@[simp] theorem State.chooseUp_frame (n : LinkId) (k : OrderKind) :
    (s.chooseUp n k).table = s.table ∧ (s.chooseUp n k).held = s.held ∧ (s.chooseUp n k).profiles = s.profiles ∧
    (s.chooseUp n k).groups = s.groups ∧ (s.chooseUp n k).asks = s.asks ∧ (s.chooseUp n k).presence = s.presence ∧
    (s.chooseUp n k).queues = s.queues ∧ (s.chooseUp n k).noteLow = s.noteLow ∧
    (s.chooseUp n k).derived = s.derived ∧ (s.chooseUp n k).sent = s.sent ∧ (s.chooseUp n k).dirty = s.dirty ∧
    (s.chooseUp n k).ports = s.ports ∧ (s.chooseUp n k).deskTime = s.deskTime ∧ (s.chooseUp n k).mask = s.mask ∧
    (s.chooseUp n k).pollInterval = s.pollInterval ∧ (s.chooseUp n k).yieldWait = s.yieldWait ∧
    (s.chooseUp n k).resetLow = s.resetLow ∧ (s.chooseUp n k).pending = s.pending := by
  unfold State.chooseUp; repeat' (first | (split) | (refine ⟨?_, ?_⟩) | rfl)

@[simp] theorem State.nextOrder_frame (n : LinkId) :
    (s.nextOrder n).table = s.table ∧ (s.nextOrder n).held = s.held ∧ (s.nextOrder n).profiles = s.profiles ∧
    (s.nextOrder n).groups = s.groups ∧ (s.nextOrder n).asks = s.asks ∧ (s.nextOrder n).presence = s.presence ∧
    (s.nextOrder n).queues = s.queues ∧ (s.nextOrder n).noteLow = s.noteLow ∧ (s.nextOrder n).derived = s.derived ∧
    (s.nextOrder n).sent = s.sent ∧ (s.nextOrder n).dirty = s.dirty ∧ (s.nextOrder n).ports = s.ports ∧
    (s.nextOrder n).deskTime = s.deskTime ∧ (s.nextOrder n).mask = s.mask ∧
    (s.nextOrder n).pollInterval = s.pollInterval ∧ (s.nextOrder n).yieldWait = s.yieldWait ∧
    (s.nextOrder n).resetLow = s.resetLow ∧ (s.nextOrder n).pending = s.pending := by
  unfold State.nextOrder; repeat' (first | (split) | (refine ⟨?_, ?_⟩) | rfl | simp)

@[simp] theorem State.failInSession_frame (n : LinkId) (o : LinkOrder) :
    (s.failInSession n o).table = s.table ∧ (s.failInSession n o).profiles = s.profiles ∧
    (s.failInSession n o).groups = s.groups ∧ (s.failInSession n o).asks = s.asks ∧
    (s.failInSession n o).presence = s.presence ∧ (s.failInSession n o).ports = s.ports ∧
    (s.failInSession n o).deskTime = s.deskTime ∧ (s.failInSession n o).mask = s.mask ∧
    (s.failInSession n o).pollInterval = s.pollInterval ∧ (s.failInSession n o).yieldWait = s.yieldWait ∧
    (s.failInSession n o).resetLow = s.resetLow ∧ (s.failInSession n o).pending = s.pending := by
  unfold State.failInSession; repeat' (first | (split) | (refine ⟨?_, ?_⟩) | rfl | simp)

@[simp] theorem State.failExchange_frame (n : LinkId) :
    (s.failExchange n).table = s.table ∧ (s.failExchange n).profiles = s.profiles ∧
    (s.failExchange n).groups = s.groups ∧ (s.failExchange n).asks = s.asks ∧
    (s.failExchange n).presence = s.presence ∧ (s.failExchange n).ports = s.ports ∧
    (s.failExchange n).deskTime = s.deskTime ∧ (s.failExchange n).mask = s.mask ∧
    (s.failExchange n).pollInterval = s.pollInterval ∧ (s.failExchange n).yieldWait = s.yieldWait ∧
    (s.failExchange n).resetLow = s.resetLow ∧ (s.failExchange n).pending = s.pending := by
  unfold State.failExchange; repeat' (first | (split) | (refine ⟨?_, ?_⟩) | rfl | simp)

@[simp] theorem State.goodExchange_frame (n : LinkId) :
    (s.goodExchange n).table = s.table ∧ (s.goodExchange n).held = s.held ∧
    (s.goodExchange n).profiles = s.profiles ∧ (s.goodExchange n).groups = s.groups ∧
    (s.goodExchange n).asks = s.asks ∧ (s.goodExchange n).presence = s.presence ∧
    (s.goodExchange n).queues = s.queues ∧ (s.goodExchange n).noteLow = s.noteLow ∧
    (s.goodExchange n).derived = s.derived ∧ (s.goodExchange n).sent = s.sent ∧
    (s.goodExchange n).dirty = s.dirty ∧ (s.goodExchange n).ports = s.ports ∧
    (s.goodExchange n).deskTime = s.deskTime ∧ (s.goodExchange n).mask = s.mask ∧
    (s.goodExchange n).pollInterval = s.pollInterval ∧ (s.goodExchange n).yieldWait = s.yieldWait ∧
    (s.goodExchange n).resetLow = s.resetLow ∧ (s.goodExchange n).pending = s.pending := by
  simp [State.goodExchange]

@[simp] theorem State.noteLast_frame (n : LinkId) (k : OrderKind) :
    (s.noteLast n k).table = s.table ∧ (s.noteLast n k).held = s.held ∧ (s.noteLast n k).profiles = s.profiles ∧
    (s.noteLast n k).groups = s.groups ∧ (s.noteLast n k).asks = s.asks ∧ (s.noteLast n k).presence = s.presence ∧
    (s.noteLast n k).queues = s.queues ∧ (s.noteLast n k).noteLow = s.noteLow ∧
    (s.noteLast n k).derived = s.derived ∧ (s.noteLast n k).sent = s.sent ∧ (s.noteLast n k).dirty = s.dirty ∧
    (s.noteLast n k).ports = s.ports ∧ (s.noteLast n k).deskTime = s.deskTime ∧ (s.noteLast n k).mask = s.mask ∧
    (s.noteLast n k).pollInterval = s.pollInterval ∧ (s.noteLast n k).yieldWait = s.yieldWait ∧
    (s.noteLast n k).resetLow = s.resetLow ∧ (s.noteLast n k).pending = s.pending := by
  simp [State.noteLast]

@[simp] theorem State.takeIdent_frame (n : LinkId) (t c : Byte) :
    (s.takeIdent n t c).table = s.table ∧ (s.takeIdent n t c).held = s.held ∧
    (s.takeIdent n t c).profiles = s.profiles ∧ (s.takeIdent n t c).groups = s.groups ∧
    (s.takeIdent n t c).asks = s.asks ∧ (s.takeIdent n t c).presence = s.presence ∧
    (s.takeIdent n t c).queues = s.queues ∧ (s.takeIdent n t c).noteLow = s.noteLow ∧
    (s.takeIdent n t c).derived = s.derived ∧ (s.takeIdent n t c).sent = s.sent ∧
    (s.takeIdent n t c).dirty = s.dirty ∧ (s.takeIdent n t c).ports = s.ports ∧
    (s.takeIdent n t c).deskTime = s.deskTime ∧ (s.takeIdent n t c).mask = s.mask ∧
    (s.takeIdent n t c).pollInterval = s.pollInterval ∧ (s.takeIdent n t c).yieldWait = s.yieldWait ∧
    (s.takeIdent n t c).resetLow = s.resetLow ∧ (s.takeIdent n t c).pending = s.pending := by
  unfold State.takeIdent; repeat' (first | (split) | (refine ⟨?_, ?_⟩) | rfl)

@[simp] theorem State.syncNotice_frame (n : LinkId) (c : SyncCause) (i : Identity) :
    (s.syncNotice n c i).table = s.table ∧ (s.syncNotice n c i).held = s.held ∧
    (s.syncNotice n c i).profiles = s.profiles ∧ (s.syncNotice n c i).groups = s.groups ∧
    (s.syncNotice n c i).asks = s.asks ∧ (s.syncNotice n c i).presence = s.presence ∧
    (s.syncNotice n c i).derived = s.derived ∧ (s.syncNotice n c i).sent = s.sent ∧
    (s.syncNotice n c i).dirty = s.dirty ∧ (s.syncNotice n c i).links = s.links ∧
    (s.syncNotice n c i).ports = s.ports ∧ (s.syncNotice n c i).deskTime = s.deskTime ∧
    (s.syncNotice n c i).mask = s.mask ∧ (s.syncNotice n c i).pollInterval = s.pollInterval ∧
    (s.syncNotice n c i).yieldWait = s.yieldWait ∧ (s.syncNotice n c i).resetLow = s.resetLow ∧
    (s.syncNotice n c i).pending = s.pending := by
  cases c <;> simp [State.syncNotice]

@[simp] theorem State.takeImage_frame (n : LinkId) (k : BitVec 128) :
    (s.takeImage n k).profiles = s.profiles ∧ (s.takeImage n k).asks = s.asks ∧
    (s.takeImage n k).presence = s.presence ∧ (s.takeImage n k).ports = s.ports ∧
    (s.takeImage n k).deskTime = s.deskTime ∧ (s.takeImage n k).mask = s.mask ∧
    (s.takeImage n k).pollInterval = s.pollInterval ∧ (s.takeImage n k).yieldWait = s.yieldWait ∧
    (s.takeImage n k).resetLow = s.resetLow ∧ (s.takeImage n k).pending = s.pending := by
  unfold State.takeImage; repeat' (first | (split) | (refine ⟨?_, ?_⟩) | rfl | simp)

@[simp] theorem State.takeLost_frame (n : LinkId) :
    (s.takeLost n).table = s.table ∧ (s.takeLost n).held = s.held ∧ (s.takeLost n).profiles = s.profiles ∧
    (s.takeLost n).groups = s.groups ∧ (s.takeLost n).asks = s.asks ∧ (s.takeLost n).presence = s.presence ∧
    (s.takeLost n).queues = s.queues ∧ (s.takeLost n).noteLow = s.noteLow ∧ (s.takeLost n).derived = s.derived ∧
    (s.takeLost n).ports = s.ports ∧ (s.takeLost n).deskTime = s.deskTime ∧ (s.takeLost n).mask = s.mask ∧
    (s.takeLost n).pollInterval = s.pollInterval ∧ (s.takeLost n).yieldWait = s.yieldWait ∧
    (s.takeLost n).resetLow = s.resetLow ∧ (s.takeLost n).pending = s.pending := by
  unfold State.takeLost; repeat' (first | (split) | (refine ⟨?_, ?_⟩) | rfl | simp)

@[simp] theorem State.handAcceptance_frame (n : LinkId) (o : LinkOrder) :
    (s.handAcceptance n o).table = s.table ∧ (s.handAcceptance n o).held = s.held ∧
    (s.handAcceptance n o).profiles = s.profiles ∧ (s.handAcceptance n o).groups = s.groups ∧
    (s.handAcceptance n o).asks = s.asks ∧ (s.handAcceptance n o).presence = s.presence ∧
    (s.handAcceptance n o).queues = s.queues ∧ (s.handAcceptance n o).noteLow = s.noteLow ∧
    (s.handAcceptance n o).derived = s.derived ∧ (s.handAcceptance n o).sent = s.sent ∧
    (s.handAcceptance n o).dirty = s.dirty ∧ (s.handAcceptance n o).ports = s.ports ∧
    (s.handAcceptance n o).deskTime = s.deskTime ∧ (s.handAcceptance n o).mask = s.mask ∧
    (s.handAcceptance n o).pollInterval = s.pollInterval ∧ (s.handAcceptance n o).yieldWait = s.yieldWait ∧
    (s.handAcceptance n o).resetLow = s.resetLow ∧ (s.handAcceptance n o).pending = s.pending := by
  cases o <;> simp [State.handAcceptance]

@[simp] theorem State.goodReply_frame (n : LinkId) (x : Exchange) (r : Reply) :
    (s.goodReply n x r).profiles = s.profiles ∧ (s.goodReply n x r).asks = s.asks ∧
    (s.goodReply n x r).presence = s.presence ∧ (s.goodReply n x r).ports = s.ports ∧
    (s.goodReply n x r).deskTime = s.deskTime ∧ (s.goodReply n x r).mask = s.mask ∧
    (s.goodReply n x r).pollInterval = s.pollInterval ∧ (s.goodReply n x r).yieldWait = s.yieldWait ∧
    (s.goodReply n x r).resetLow = s.resetLow ∧ (s.goodReply n x r).pending = s.pending := by
  cases r <;> simp [State.goodReply]

@[simp] theorem State.endExchange_frame (n : LinkId) (r : Reply) :
    (s.endExchange n r).profiles = s.profiles ∧ (s.endExchange n r).asks = s.asks ∧
    (s.endExchange n r).presence = s.presence ∧ (s.endExchange n r).ports = s.ports ∧
    (s.endExchange n r).deskTime = s.deskTime ∧ (s.endExchange n r).mask = s.mask ∧
    (s.endExchange n r).pollInterval = s.pollInterval ∧ (s.endExchange n r).yieldWait = s.yieldWait ∧
    (s.endExchange n r).resetLow = s.resetLow ∧ (s.endExchange n r).pending = s.pending := by
  unfold State.endExchange; repeat' (first | (split) | (refine ⟨?_, ?_⟩) | rfl | simp)

@[simp] theorem State.settleLinks_frame  :
    (s.settleLinks).table = s.table ∧ (s.settleLinks).held = s.held ∧ (s.settleLinks).profiles = s.profiles ∧
    (s.settleLinks).groups = s.groups ∧ (s.settleLinks).asks = s.asks ∧ (s.settleLinks).presence = s.presence ∧
    (s.settleLinks).queues = s.queues ∧ (s.settleLinks).noteLow = s.noteLow ∧ (s.settleLinks).derived = s.derived ∧
    (s.settleLinks).sent = s.sent ∧ (s.settleLinks).dirty = s.dirty ∧ (s.settleLinks).links = s.links ∧
    (s.settleLinks).deskTime = s.deskTime ∧ (s.settleLinks).mask = s.mask ∧
    (s.settleLinks).pollInterval = s.pollInterval ∧ (s.settleLinks).yieldWait = s.yieldWait ∧
    (s.settleLinks).resetLow = s.resetLow ∧ (s.settleLinks).pending = s.pending := by
  unfold State.settleLinks; repeat' (first | (split) | (refine ⟨?_, ?_⟩) | rfl | simp)

@[simp] theorem State.disableSession_frame (n : LinkId) :
    (s.disableSession n).table = s.table ∧ (s.disableSession n).profiles = s.profiles ∧
    (s.disableSession n).groups = s.groups ∧ (s.disableSession n).asks = s.asks ∧
    (s.disableSession n).presence = s.presence ∧ (s.disableSession n).ports = s.ports ∧
    (s.disableSession n).deskTime = s.deskTime ∧ (s.disableSession n).mask = s.mask ∧
    (s.disableSession n).pollInterval = s.pollInterval ∧ (s.disableSession n).yieldWait = s.yieldWait ∧
    (s.disableSession n).resetLow = s.resetLow ∧ (s.disableSession n).pending = s.pending := by
  unfold State.disableSession; repeat' (first | (split) | (refine ⟨?_, ?_⟩) | rfl | simp)

@[simp] theorem State.writeSent_frame (n : LinkId) (a : Acceptance) :
    (s.writeSent n a).table = s.table ∧ (s.writeSent n a).held = s.held ∧ (s.writeSent n a).profiles = s.profiles ∧
    (s.writeSent n a).groups = s.groups ∧ (s.writeSent n a).asks = s.asks ∧
    (s.writeSent n a).presence = s.presence ∧ (s.writeSent n a).queues = s.queues ∧
    (s.writeSent n a).noteLow = s.noteLow ∧ (s.writeSent n a).derived = s.derived ∧
    (s.writeSent n a).links = s.links ∧ (s.writeSent n a).ports = s.ports ∧
    (s.writeSent n a).deskTime = s.deskTime ∧ (s.writeSent n a).mask = s.mask ∧
    (s.writeSent n a).pollInterval = s.pollInterval ∧ (s.writeSent n a).yieldWait = s.yieldWait ∧
    (s.writeSent n a).resetLow = s.resetLow ∧ (s.writeSent n a).pending = s.pending := by
  simp [State.writeSent]

@[simp] theorem State.writePort_frame (p : Port) (m : LineMode) (l : Byte) :
    (s.writePort p m l).table = s.table ∧ (s.writePort p m l).held = s.held ∧
    (s.writePort p m l).profiles = s.profiles ∧ (s.writePort p m l).groups = s.groups ∧
    (s.writePort p m l).asks = s.asks ∧ (s.writePort p m l).queues = s.queues ∧
    (s.writePort p m l).derived = s.derived ∧ (s.writePort p m l).sent = s.sent ∧
    (s.writePort p m l).dirty = s.dirty ∧ (s.writePort p m l).links = s.links ∧
    (s.writePort p m l).deskTime = s.deskTime ∧ (s.writePort p m l).mask = s.mask ∧
    (s.writePort p m l).pollInterval = s.pollInterval ∧ (s.writePort p m l).yieldWait = s.yieldWait ∧
    (s.writePort p m l).resetLow = s.resetLow ∧ (s.writePort p m l).pending = s.pending := by
  unfold State.writePort; repeat' (first | (split) | (refine ⟨?_, ?_⟩) | rfl)

@[simp] theorem State.writeLinks_frame (m p y : Byte) :
    (s.writeLinks m p y).table = s.table ∧ (s.writeLinks m p y).held = s.held ∧
    (s.writeLinks m p y).profiles = s.profiles ∧ (s.writeLinks m p y).groups = s.groups ∧
    (s.writeLinks m p y).asks = s.asks ∧ (s.writeLinks m p y).presence = s.presence ∧
    (s.writeLinks m p y).queues = s.queues ∧ (s.writeLinks m p y).noteLow = s.noteLow ∧
    (s.writeLinks m p y).derived = s.derived ∧ (s.writeLinks m p y).sent = s.sent ∧
    (s.writeLinks m p y).dirty = s.dirty ∧ (s.writeLinks m p y).ports = s.ports ∧
    (s.writeLinks m p y).deskTime = s.deskTime ∧ (s.writeLinks m p y).resetLow = s.resetLow ∧
    (s.writeLinks m p y).pending = s.pending := by
  simp [State.writeLinks]

@[simp] theorem State.resetPos_frame (q : KeyPos) :
    (s.resetPos q).held = s.held ∧ (s.resetPos q).profiles = s.profiles ∧ (s.resetPos q).groups = s.groups ∧
    (s.resetPos q).presence = s.presence ∧ (s.resetPos q).derived = s.derived ∧ (s.resetPos q).sent = s.sent ∧
    (s.resetPos q).dirty = s.dirty ∧ (s.resetPos q).links = s.links ∧ (s.resetPos q).deskTime = s.deskTime ∧
    (s.resetPos q).mask = s.mask ∧ (s.resetPos q).pollInterval = s.pollInterval ∧
    (s.resetPos q).yieldWait = s.yieldWait ∧ (s.resetPos q).resetLow = s.resetLow ∧
    (s.resetPos q).pending = s.pending := by
  unfold State.resetPos; repeat' (first | (split) | (refine ⟨?_, ?_⟩) | rfl | simp)

@[simp] theorem State.resetSession_frame (n : LinkId) :
    (s.resetSession n).table = s.table ∧ (s.resetSession n).held = s.held ∧
    (s.resetSession n).profiles = s.profiles ∧ (s.resetSession n).groups = s.groups ∧
    (s.resetSession n).asks = s.asks ∧ (s.resetSession n).presence = s.presence ∧
    (s.resetSession n).queues = s.queues ∧ (s.resetSession n).noteLow = s.noteLow ∧
    (s.resetSession n).derived = s.derived ∧ (s.resetSession n).sent = s.sent ∧
    (s.resetSession n).dirty = s.dirty ∧ (s.resetSession n).ports = s.ports ∧
    (s.resetSession n).deskTime = s.deskTime ∧ (s.resetSession n).mask = s.mask ∧
    (s.resetSession n).pollInterval = s.pollInterval ∧ (s.resetSession n).yieldWait = s.yieldWait ∧
    (s.resetSession n).resetLow = s.resetLow ∧ (s.resetSession n).pending = s.pending := by
  unfold State.resetSession; repeat' (first | (split) | (refine ⟨?_, ?_⟩) | rfl)

end Sys2Proof.Machine
end

