-- ==== Sys2Proof/Laws/Ops.lean ====
section
/-! SUPPORT. What each shared operation does, said once: requests and answers, range checks, the yield table's searches,
offers to a queue, withdrawal, group membership, the derivation of a lamp. What an operation leaves unchanged is in
Frames.lean. -/

namespace Sys2Proof.Machine

/-! ## Requests and answers -/

theorem State.requestOf_working {s : State} {p : Port} {r : Request} (h : WorkingOn s p r) :
    s.requestOf p = some r := by
  simp only [WorkingOn] at h
  simp only [State.requestOf, h]

/-- A port WORKING on `r` is ANSWERED with the status, the code of `r` and the data. -/
theorem State.answer_working {s : State} {p : Port} {r : Request} (h : WorkingOn s p r) (st : StatusCode)
    (d : List Byte) : s.answer p st d = s.setPort p { s.ports[p] with state := .answered ⟨st, r.code, d⟩ } := by
  simp only [WorkingOn] at h
  simp only [State.answer, h]

/-- A port that is not WORKING is not answered. -/
theorem State.answer_not_working {s : State} {p : Port} (h : ∀ r, ¬ WorkingOn s p r) (st : StatusCode)
    (d : List Byte) : s.answer p st d = s := by
  unfold State.answer
  split
  · exact absurd ‹_› (h _)
  · rfl
  · rfl

/-- An answer to one port leaves every other port as it was. -/
theorem State.answer_other (s : State) {p k : Port} (h : p ≠ k) (st : StatusCode) (d : List Byte) :
    (s.answer p st d).ports[k] = s.ports[k] := by
  unfold State.answer
  have : p.1 ≠ k.1 := fun e => h (Fin.ext e)
  split <;> simp [this]

/-- An answer changes the state of a port unit alone. -/
theorem State.answer_settings (s : State) (p k : Port) (st : StatusCode) (d : List Byte) :
    ((s.answer p st d).ports[k]).lineMode = (s.ports[k]).lineMode ∧
    ((s.answer p st d).ports[k]).lapseTime = (s.ports[k]).lapseTime ∧
    ((s.answer p st d).ports[k]).lapseStart = (s.ports[k]).lapseStart ∧
    ((s.answer p st d).ports[k]).lapseFlag = (s.ports[k]).lapseFlag ∧
    ((s.answer p st d).ports[k]).refused = (s.ports[k]).refused ∧
    ((s.answer p st d).ports[k]).csLow = (s.ports[k]).csLow ∧
    ((s.answer p st d).ports[k]).txn = (s.ports[k]).txn := by
  unfold State.answer
  by_cases e : p.1 = k.1 <;> split <;> simp [e]

/-- A command whose meaning is one answer to a WORKING port. -/
theorem onlyAnswers_of {s : State} {c : Instr} {p : Port} {r : Request} {st : StatusCode} {d : List Byte} {code : Byte}
    (h : WorkingOn s p r) (hc : r.code = code) (he : exec c s = .next (s.answer p st d)) :
    OnlyAnswers c s p st code d := by
  rw [State.answer_working h st d] at he
  refine ⟨_, he, by simp [Answers, hc], fun x hx => ?_⟩
  cases x <;> first | exact absurd (by decide) hx | simp [Part.Same]

/-! ## Operands -/

theorem position_eq {w : Half} {q : KeyPos} (h : w.toNat = q.1) : position w = some q := by
  unfold position
  have := q.2
  split_ifs with h'
  · simp [h]
  · omega

theorem position_none {w : Half} (h : 1023 < w.toNat) : position w = none := by
  unfold position
  split_ifs <;> first | rfl | omega

theorem index_eq {k : Nat} {b : Byte} {i : Fin k} (h : b.toNat = i.1) : index k b = some i := by
  unfold index
  have := i.2
  split_ifs with h'
  · simp [h]
  · omega

theorem index_none {k : Nat} {b : Byte} (h : k ≤ b.toNat) : index k b = none := by
  unfold index
  split_ifs <;> first | rfl | omega

theorem rangeOk_iff (f : Half) (n : Byte) : rangeOk f n = true ↔
    f.toNat ≤ 1023 ∧ 1 ≤ n.toNat ∧ n.toNat ≤ 128 ∧ f.toNat % 128 + n.toNat ≤ 128 := by
  simp [rangeOk, and_assoc]

/-- The positions of a range are its numbers in ascending order. -/
theorem rangeOf_vals {f : Half} {n : Byte} {qs : List KeyPos} (h : rangeOf f n = some qs) :
    qs.map Fin.val = List.range' f.toNat n.toNat := by
  unfold rangeOf at h
  split_ifs at h with hk
  simp only [Option.some.injEq] at h
  subst h
  rw [rangeOk_iff] at hk
  rw [List.range'_eq_map_range, List.map_map]
  apply List.map_congr_left
  intro i hi
  simp only [List.mem_range] at hi
  simp only [Function.comp, Fin.ofNat]
  omega

/-- No position stands twice in a range. -/
theorem rangeOf_nodup {f : Half} {n : Byte} {qs : List KeyPos} (h : rangeOf f n = some qs) : qs.Nodup := by
  have := rangeOf_vals h
  apply List.Nodup.of_map Fin.val
  rw [this]
  exact List.nodup_range'

/-- The two bytes of a value make the value. -/
theorem half_bytes (w : Half) : half (w.extractLsb' 8 8) (w.extractLsb' 0 8) = w := by
  unfold half
  apply BitVec.eq_of_getLsbD_eq
  intro i hi
  simp only [BitVec.getLsbD_append, BitVec.getLsbD_extractLsb']
  by_cases h : i < 8
  · simp [h]
  · have e : 8 + (i - 8) = i := by omega
    have : i - 8 < 8 := by omega
    simp [h, e, this]

/-! ## Range requests -/

/-- The first position that a check refuses decides. -/
theorem firstFailure_at {check : KeyPos → Option StatusCode} {pre post : List KeyPos} {q : KeyPos} {st : StatusCode}
    (hp : ∀ x ∈ pre, check x = none) (hq : check q = some st) (k : Nat) :
    firstFailure check k (pre ++ q :: post) = some (st, k + pre.length) := by
  induction pre generalizing k with
  | nil => simp [firstFailure, hq]
  | cons x xs ih =>
    simp only [List.cons_append, firstFailure, hp x (by simp)]
    rw [ih (fun y hy => hp y (by simp [hy]))]
    simp only [List.length_cons]
    congr 2
    omega

/-- A check that refuses no position. -/
theorem firstFailure_none {check : KeyPos → Option StatusCode} {l : List KeyPos} (hp : ∀ x ∈ l, check x = none)
    (k : Nat) : firstFailure check k l = none := by
  induction l generalizing k with
  | nil => rfl
  | cons x xs ih =>
    simp only [firstFailure, hp x (by simp)]
    exact ih (fun y hy => hp y (by simp [hy])) _

/-! ## The yield table -/

theorem findSome_unique {β : Type} {f : AskId → Option β} {i : AskId} {b : β} (h : f i = some b)
    (hu : ∀ j, j ≠ i → f j = none) : (List.finRange 4).findSome? f = some b := by
  have key : ∀ l : List AskId, i ∈ l → l.findSome? f = some b := by
    intro l
    induction l with
    | nil => simp
    | cons x xs ih =>
      intro hm
      by_cases e : x = i
      · subst e
        simp [h]
      · simp only [List.findSome?_cons, hu x e]
        exact ih (by simpa [Ne.symm e] using hm)
  exact key _ (by simp)

/-- The one ask pending on a position is found. -/
theorem State.askOn_some {s : State} {q : KeyPos} {i : AskId} {a : Ask} (h : s.asks[i] = some a) (hp : a.pos = q)
    (hu : ∀ (j : AskId) b, s.asks[j] = some b → b.pos = q → j = i) : s.askOn q = some (i, a) := by
  unfold State.askOn
  refine findSome_unique (i := i) ?_ ?_
  · show Option.bind s.asks[i] _ = _
    rw [h]
    simp [hp]
  · intro j hj
    cases e : s.asks[j] with
    | none => simp
    | some b =>
      by_cases hb : b.pos = q
      · exact absurd (hu j b e hb) hj
      · simp [hb]

theorem State.askOn_none {s : State} {q : KeyPos} (h : ∀ (i : AskId) a, s.asks[i] = some a → a.pos ≠ q) :
    s.askOn q = none := by
  unfold State.askOn
  rw [List.findSome?_eq_none_iff]
  intro i _
  cases e : s.asks[i] with
  | none => simp
  | some b => simp [h i b e]

/-- What is found on a position is an entry of the table for it. -/
theorem State.askOn_mem {s : State} {q : KeyPos} {i : AskId} {a : Ask} (h : s.askOn q = some (i, a)) :
    s.asks[i] = some a ∧ a.pos = q := by
  unfold State.askOn at h
  obtain ⟨j, _, hj⟩ := List.exists_of_findSome?_eq_some h
  cases e : s.asks[j] with
  | none => simp [e] at hj
  | some b =>
    simp only [e, Option.bind_some] at hj
    split_ifs at hj with hb
    simp only [Option.some.injEq, Prod.mk.injEq] at hj
    obtain ⟨rfl, rfl⟩ := hj
    exact ⟨e, hb⟩

/-- The one ask of an asker is found. -/
theorem State.askOf_some {s : State} {p : Port} {i : AskId} {a : Ask} (h : s.asks[i] = some a) (hp : a.asker = p)
    (hu : ∀ (j : AskId) b, s.asks[j] = some b → b.asker = p → j = i) : s.askOf p = some (i, a) := by
  unfold State.askOf
  refine findSome_unique (i := i) ?_ ?_
  · show Option.bind s.asks[i] _ = _
    rw [h]
    simp [hp]
  · intro j hj
    cases e : s.asks[j] with
    | none => simp
    | some b =>
      by_cases hb : b.asker = p
      · exact absurd (hu j b e hb) hj
      · simp [hb]

theorem State.askOf_none {s : State} {p : Port} (h : ∀ (i : AskId) a, s.asks[i] = some a → a.asker ≠ p) :
    s.askOf p = none := by
  unfold State.askOf
  rw [List.findSome?_eq_none_iff]
  intro i _
  cases e : s.asks[i] with
  | none => simp
  | some b => simp [h i b e]

/-! ## Offers -/

theorem Offered.refl (s : State) (h : Port) : Offered s s h [] := by
  exact ⟨(upd_get s.queues h).symm, by simp⟩

/-- One offer. -/
theorem State.offer_offered (s : State) (h : Port) (r : Report) : Offered s (s.offer h r) h [r] := by
  refine ⟨by simp [State.offer, State.driveNote], by simp [State.offer, State.driveNote]⟩

/-- Offers follow one another. -/
theorem Offered.trans {s t u : State} {h : Port} {l m : List Report} (a : Offered s t h l) (b : Offered t u h m)
    (time : t.deskTime = s.deskTime) (mode : (t.ports[h]).lineMode = (s.ports[h]).lineMode) :
    Offered s u h (l ++ m) := by
  obtain ⟨a1, a2⟩ := a
  obtain ⟨b1, b2⟩ := b
  refine ⟨?_, ?_⟩
  · rw [b1, a1, List.foldl_append, time]
    simp
  · rw [b2, a2, mode]
    by_cases hm : m = []
    · subst hm
      by_cases hl : l = []
      · simp [hl]
      · rw [b1]
        simp [hl]
    · by_cases hl : l = [] <;> simp [hm, hl]

/-- What touches neither queues nor NOTE lines offers nothing more. -/
theorem Offered.congr {s t u : State} {h : Port} {l : List Report} (a : Offered s t h l) (q : u.queues = t.queues)
    (n : u.noteLow = t.noteLow) : Offered s u h l := by
  refine ⟨q.trans a.1, ?_⟩
  rw [n, a.2, q]

/-! ## Held records -/

theorem State.heldAt_mem {s : State} {q : KeyPos} {r : HeldRecord} (h : s.heldAt q = some r) :
    r ∈ s.held ∧ r.pos = q := by
  unfold State.heldAt at h
  refine ⟨List.mem_of_find?_eq_some h, ?_⟩
  simpa using List.find?_some h

theorem State.heldAt_none {s : State} {q : KeyPos} : s.heldAt q = none ↔ ∀ r ∈ s.held, r.pos ≠ q := by
  unfold State.heldAt
  simp [List.find?_eq_none]

/-- In a set without two records for a position, a record is the one found at its position. -/
theorem State.heldAt_of_mem {s : State} {r : HeldRecord} (h : s.HeldLaw) (m : r ∈ s.held) :
    s.heldAt r.pos = some r := by
  cases e : s.heldAt r.pos with
  | none => exact absurd rfl (State.heldAt_none.mp e r m)
  | some x =>
    obtain ⟨hx, hp⟩ := State.heldAt_mem e
    have := List.inj_on_of_nodup_map h.distinct hx m hp
    rw [this]

/-- A record in the form of R62 that is opened to no host is as a withdrawal leaves it. -/
theorem HeldRecord.afterWithdrawal_self {r : HeldRecord} (f : HeldForm r) (h : r.openedTo = none) :
    r.afterWithdrawal = r := by
  have c : r.closingDue = false := by
    cases e : r.closingDue
    · rfl
    · have := f.closing e
      simp [h] at this
  have ph : r.phase = .held := by
    by_contra n
    simp [f.due n] at c
  obtain ⟨a1, a2, a3, a4, a5, a6, a7⟩ := r
  simp_all [HeldRecord.afterWithdrawal]

/-- A withdrawal leaves every record of its position opened to no host, and the others as they were (R70). -/
theorem State.withdraw_held {s : State} (h : s.HeldLaw) (f : ∀ r ∈ s.held, HeldForm r) (announce : Bool) (q : KeyPos) :
    (s.withdraw announce q).held = s.held.map (fun r => if r.pos = q then r.afterWithdrawal else r) := by
  unfold State.withdraw
  cases e : s.heldAt q with
  | none =>
    have := State.heldAt_none.mp e
    simp only
    symm
    rw [List.map_congr_left (g := id)]
    · simp
    · intro r hr
      simp [this r hr]
  | some r =>
    obtain ⟨hm, hp⟩ := State.heldAt_mem e
    cases eo : r.openedTo with
    | none =>
      simp only [eo]
      symm
      rw [List.map_congr_left (g := id)]
      · simp
      · intro x hx
        by_cases ex : x.pos = q
        · have : x = r := List.inj_on_of_nodup_map h.distinct hx hm (ex.trans hp.symm)
          simp [this, HeldRecord.afterWithdrawal_self (f r hm) eo]
        · simp [ex]
    | some o =>
      simp only [eo]
      split_ifs <;> simp [State.modifyHeld, HeldRecord.withdrawn, HeldRecord.afterWithdrawal]

/-- The notice of a withdrawal goes to the owner of the position (R70, R69). -/
theorem State.withdraw_offered {s : State} (o : s.OpenLaw) (f : ∀ r ∈ s.held, HeldForm r) {q : KeyPos} {h : Port}
    (ho : s.table[q].owner = some h) : Offered s (s.withdraw true q) h (s.withdrawnReport q) := by
  unfold State.withdraw State.withdrawnReport
  cases e : s.heldAt q with
  | none => exact Offered.refl s h
  | some r =>
    obtain ⟨hm, hp⟩ := State.heldAt_mem e
    cases eo : r.openedTo with
    | none =>
      have c : r.closingDue = false := by
        cases ec : r.closingDue
        · rfl
        · have := (f r hm).closing ec
          simp [eo] at this
      simp only [eo, c, Bool.false_eq_true, if_false]
      exact Offered.refl s h
    | some x =>
      have hx : x.host = h := by
        have := (o r hm x (by simp [eo])).1
        subst hp
        rw [ho] at this
        simpa using this.symm
      simp only [eo, Bool.true_and]
      by_cases c : r.closingDue = true
      · simp only [c, if_true]
        rw [hx]
        exact (s.offer_offered h _).congr rfl rfl
      · simp only [c]
        exact (Offered.refl s h).congr rfl rfl

/-- The notice of a member's leaving goes to the owner of the position (R104). -/
theorem State.leaveGroup_offered {s : State} {q : KeyPos} {h : Port} (ho : s.table[q].owner = some h) :
    Offered s (s.leaveGroup true q) h (s.deselectedReport q) := by
  unfold State.leaveGroup State.deselectedReport
  cases ec : s.table[q].cls with
  | select g =>
    simp only [KeyClass.group?]
    cases eg : s.groups[g] with
    | none => exact Offered.refl s h
    | some x =>
      by_cases es : x.selected = some q
      · simp only [es, if_true, ho]
        exact ((s.setGroup g _).offer_offered h _).congr rfl rfl
      · simp only [es, if_false]
        exact (Offered.refl s h).congr rfl rfl
  | momentary => exact Offered.refl s h
  | pressOnly => exact Offered.refl s h
  | repeating i => exact Offered.refl s h
  | toggle l => exact Offered.refl s h

/-! ## Lamps -/

/-- A lamp follows from the binding table, the groups and the held-key set. -/
theorem State.lampFor_congr {s t : State} (q : KeyPos) (a : t.table[q] = s.table[q]) (b : t.groups = s.groups)
    (c : t.held = s.held) : t.lampFor q = s.lampFor q := by
  unfold State.lampFor State.heldAt
  rw [a, b, c]

/-- The last stage of an event that re-derives one position (R126, R128). -/
theorem State.rederive_redrawn {s t : State} (q : KeyPos) (d : t.derived = s.derived) (e : t.dirty = s.dirty) :
    Redrawn s (t.rederive q) [q] := by
  refine ⟨fun k => ?_, fun b => ?_⟩
  · rw [State.lampFor_congr (s := t) k (by simp) (by simp) (by simp)]
    by_cases h : k = q
    · subst h
      simp [State.rederive]
    · have h' : q.1 ≠ k.1 := fun x => h (Fin.ext x.symm)
      simp [State.rederive, h, h', d]
  · by_cases h : b = blockOf q
    · subst h
      simp [State.rederive]
    · have h' : (blockOf q).1 ≠ b.1 := fun x => h (Fin.ext x.symm)
      simp [State.rederive, h, h', e]

end Sys2Proof.Machine
end

