-- ==== Sys2Proof/Laws/Stages.lean ====
section
/-! SUPPORT. What the compound operations do, each said once: the readings of a request, the endings of an ask and the
grant, the first case of a press, the exchanges of a link, and the walks over the queues and the sent images. -/

namespace Sys2Proof.Machine

/-! ## Requests as bytes (R176, R190) -/

/-- The operand bytes of a request, whatever follows them, spell the request. -/
theorem readRequest_operands (r : Request) (extra : List Byte) :
    readRequest r.code (r.operands ++ extra) = some r := by
  cases r <;> simp [readRequest, Request.code, Request.operands, bytes2, half_bytes]

/-- The length the code of a request requires. -/
theorem operandLength_code (r : Request) : operandLength r.code = some r.operands.length := by
  cases r <;> simp [operandLength, Request.code, Request.operands, bytes2]

/-! ## Small congruences -/

/-- Whether a port is WORKING on a request is read from the ports alone. -/
theorem WorkingOn.congr {s t : State} {p : Port} {r : Request} (h : WorkingOn s p r) (e : t.ports = s.ports) :
    WorkingOn t p r := by
  unfold WorkingOn at *
  rw [e]
  exact h

/-- What only changes a list of parts also only changes a longer list. -/
theorem OnlyChanges.mono {s t : State} {l m : List Part} (h : OnlyChanges s t l) (hm : ∀ x ∈ l, x ∈ m) :
    OnlyChanges s t m :=
  fun x hx => h x (fun hl => hx (hm x hl))

/-- A notice of the yield unit carries the code and generation of a binding (R110). -/
theorem yieldReport_noticeOf (s : State) (k : NoticeKind) (q : KeyPos) (n : Nat) :
    yieldReport k q s.table[q] (BitVec.ofNat 16 n) = s.noticeOf k q n false false :=
  rfl

/-! ## Changes of owner -/

@[simp] theorem State.unbind_table (s : State) (q : KeyPos) :
    (s.unbind q).table = upd s.table q (Binding.unbound (s.table[q].gen + 1)) :=
  rfl

@[simp] theorem State.bindTo_table (s : State) (h : Port) (a : AttrSet) (q : KeyPos) :
    (s.bindTo h a q).table = upd s.table q (s.table[q].take h a) :=
  rfl

/-- An ask ended without a grant: its entry removed, its asker answered, nothing else changed (R49, R52). -/
theorem State.endAsk_spec {s : State} {a : Ask} {r : Request} (hw : WorkingOn s a.asker r) (i : AskId)
    (st : StatusCode) :
    (s.endAsk i a st).asks = upd s.asks i none ∧ Answers s (s.endAsk i a st) a.asker st r.code [] ∧
    OnlyChanges s (s.endAsk i a st) [.asks, .ports] := by
  have h : s.endAsk i a st = (s.setAsk i none).setPort a.asker { s.ports[a.asker] with state := .answered ⟨st, r.code, []⟩ } := by
    have hw' : WorkingOn (s.setAsk i none) a.asker r := hw.congr rfl
    show (s.setAsk i none).answer a.asker st [] = _
    rw [State.answer_working hw']
    rfl
  rw [h]
  refine ⟨rfl, rfl, fun x hx => ?_⟩
  cases x <;> first | exact absurd (by decide) hx | rfl

/-- An ask closed: ended without a grant, and ASK_CLOSED offered to its holder (R50, R51). -/
theorem State.closeAsk_spec {s : State} {a : Ask} {r : Request} (hw : WorkingOn s a.asker r) (i : AskId)
    (st : StatusCode) (why : CloseReason) :
    let t := s.closeAsk i a st why s.table[a.pos]
    t.asks = upd s.asks i none ∧ Answers s t a.asker st r.code [] ∧
    Offered s t a.holder [s.noticeOf .askClosed a.pos (256 * i.1 + why.number) false false] ∧
    OnlyChanges s t [.asks, .ports, .queues, .noteLow] := by
  obtain ⟨e1, e2, e3⟩ := State.endAsk_spec hw i st
  refine ⟨by simp only [State.closeAsk, State.offer_frame]; exact e1,
    by simp only [Answers, State.closeAsk, State.offer_frame]; exact e2, ?_, fun x hx => ?_⟩
  · have h := ((Offered.refl s a.holder).congr (u := s.endAsk i a st) (by simp) (by simp)).trans
      (State.offer_offered (s.endAsk i a st) a.holder
        (yieldReport .askClosed a.pos s.table[a.pos] (extraPair i.1 why.number))) (by simp)
      (State.answer_settings (s.removeAsk (some i)) a.asker a.holder st []).1
    exact h
  · cases x <;> first | exact absurd (by decide) hx | simp [Part.Same]

/-- The grant, whole: the entry removed, the asker answered, the record written, the press withdrawn, the holder's
notices in their order, the lamp re-derived (R47). -/
theorem State.grant_spec {s : State} {e : Option AskId} {p h : Port} {a : AttrSet} {q : KeyPos} {r : Request}
    (hw : WorkingOn s p r) (ho : s.table[q].owner = some h) (hl : s.HeldLaw) (op : s.OpenLaw)
    (hf : ∀ r ∈ s.held, HeldForm r) :
    let t := s.grant e p h a q
    t.asks = (s.removeAsk e).asks ∧ Answers s t p .granted r.code [s.table[q].gen + 1] ∧
    t.table = upd s.table q (s.table[q].take p a) ∧
    t.held = s.held.map (fun r => if r.pos = q then r.afterWithdrawal else r) ∧
    Offered s t h
      (s.withdrawnReport q ++ s.deselectedReport q ++ [s.noticeOf .yielded q p.1 false false]) ∧
    Redrawn s t [q] ∧
    OnlyChanges s t [.asks, .ports, .table, .held, .groups, .queues, .noteLow, .derived, .dirty] := by
  intro t
  have hw1 : WorkingOn ((((((s.withdraw true q).leaveGroup true q).offer h
      (yieldReport .yielded q s.table[q] (countHalf p.1))).bindTo p a q).joinGroup q).removeAsk e) p r :=
    hw.congr (by simp)
  have ht : t = ((((((((s.withdraw true q).leaveGroup true q).offer h
      (yieldReport .yielded q s.table[q] (countHalf p.1))).bindTo p a q).joinGroup q).removeAsk e)).answerGranted p q).rederive q :=
    rfl
  rw [State.answerGranted, State.answer_working hw1] at ht
  have h1 : Offered s (s.withdraw true q) h (s.withdrawnReport q) := State.withdraw_offered op hf ho
  have h2 : Offered (s.withdraw true q) ((s.withdraw true q).leaveGroup true q) h
      ((s.withdraw true q).deselectedReport q) := State.leaveGroup_offered (by simpa using ho)
  have h3 : (s.withdraw true q).deselectedReport q = s.deselectedReport q := by
    simp [State.deselectedReport, State.noticeOf]
  rw [h3] at h2
  have h4 := (h1.trans h2 (by simp) (by simp)).trans
    (State.offer_offered _ h (yieldReport .yielded q s.table[q] (countHalf p.1))) (by simp) (by simp)
  refine ⟨?_, ?_, ?_, ?_, ?_, ?_, fun x hx => ?_⟩
  · rw [ht]
    cases e <;> simp [State.removeAsk]
  · rw [ht]
    simp [Answers, State.bindTo, Binding.take]
  · rw [ht]
    simp
  · rw [ht]
    simp
    exact State.withdraw_held hl hf true q
  · rw [ht]
    exact h4.congr (by simp) (by simp)
  · rw [ht]
    apply State.rederive_redrawn <;> simp
  · rw [ht]
    cases x <;> first | exact absurd (by decide) hx | simp [Part.Same]

/-! ## Edges and presses -/

/-- The oldest edge handed over is taken where it is the edge named, and acts where it is live and the session is UP
(R63). -/
theorem State.takeEdge_front {s : State} {press live : Bool} {q : KeyPos} {rest : List HandedEdge}
    (act : State → State) (h : s.links[panelOf q].edges = ⟨press, q, live⟩ :: rest) :
    s.takeEdge press q act =
      if live && s.links[panelOf q].session.isUp then
        act (s.setLink (panelOf q) { s.links[panelOf q] with edges := rest })
      else s.setLink (panelOf q) { s.links[panelOf q] with edges := rest } := by
  simp only [State.takeEdge, h, and_self, if_true]

/-- An edge that is not the oldest handed over changes nothing. -/
theorem State.takeEdge_other {s : State} {press : Bool} {q : KeyPos} (act : State → State)
    (h : ∀ e ∈ s.links[panelOf q].edges.head?, ¬ (e.press = press ∧ e.pos = q)) : s.takeEdge press q act = s := by
  unfold State.takeEdge
  split
  · rfl
  · next e rest he => rw [if_neg (h e (by rw [he]; rfl))]

/-- No edge is live once its session has left UP, whatever becomes of the session later (R63, R149, R158). -/
theorem LinkEngine.leaveUp_edges (l : LinkEngine) (x : Session) : ∀ e ∈ (l.leaveUp x).edges, e.live = false := by
  simp [LinkEngine.leaveUp, HandedEdge.stale]

theorem Session.isUp_false {x : Session} (h : ∀ i last poll, x ≠ .up i last poll) : x.isUp = false := by
  cases x <;> first | rfl | exact absurd rfl (h _ _ _)

/-- A record just made is the one that a change at its position reaches. -/
theorem map_append_made {l : List HeldRecord} {q : KeyPos} {r : HeldRecord} (f : HeldRecord → HeldRecord)
    (hr : r.pos = q) (h : ∀ x ∈ l, x.pos ≠ q) :
    (l ++ [r]).map (fun x => if x.pos = q then f x else x) = l ++ [f r] := by
  rw [List.map_append, List.map_congr_left (l := l) (g := id)]
  · simp [hr]
  · intro x hx
    simp [h x hx]

@[simp] theorem State.modifyHeld_held (s : State) (q : KeyPos) (f : HeldRecord → HeldRecord) :
    (s.modifyHeld q f).held = s.held.map (fun r => if r.pos = q then f r else r) :=
  rfl

@[simp] theorem State.removeHeld_held (s : State) (q : KeyPos) :
    (s.removeHeld q).held = s.held.filter (fun r => decide (r.pos ≠ q)) :=
  rfl

/-- Release processing removes the record of the position and no other, announced or not (R71). -/
theorem State.releaseKey_held (s : State) (resync lost : Bool) (q : KeyPos) :
    (s.releaseKey resync lost q).held = s.held.filter (fun r => decide (r.pos ≠ q)) := by
  unfold State.releaseKey
  cases e : s.heldAt q with
  | none =>
    have := State.heldAt_none.mp e
    symm
    simpa using this
  | some r =>
    simp only [State.rederive_frame, State.removeHeld_held]
    cases r.openedTo with
    | none => rfl
    | some o => split_ifs <;> simp

/-! ## Queues and sent images -/

/-- A panel notice is offered to every queue once (R111). -/
theorem State.panelNotice_queues (s : State) (k : NoticeKind) (n : LinkId) (extra : Half) (p : Port) :
    (s.panelNotice k n extra).queues[p] = offerTo s.deskTime s.queues[p]
      { kind := k, resync := false, lost := false, pos := posOf n 0, code := 0, gen := 0, extra := extra } := by
  have h : List.finRange 4 = [0, 1, 2, 3] := rfl
  unfold State.panelNotice
  rw [h]
  simp only [List.foldl]
  fin_cases p <;> simp [State.offer, State.driveNote]

@[simp] theorem State.forgetSent_sent (s : State) (n : LinkId) (q : KeyPos) :
    (s.forgetSent n).sent[q] = if panelOf q = n then none else s.sent[q] := by
  simp [State.forgetSent]

@[simp] theorem State.forgetSent_dirty (s : State) (n : LinkId) (b : Fin 128) :
    (s.forgetSent n).dirty[b] = if b.1 / 16 = n.1 then true else s.dirty[b] := by
  simp [State.forgetSent]

@[simp] theorem State.emptyQueue_queues (s : State) (p : Port) : (s.emptyQueue p).queues = upd s.queues p [] :=
  rfl

@[simp] theorem State.beginOrder_links (s : State) (n : LinkId) (o : LinkOrder) :
    (s.beginOrder n o).links =
      upd s.links n { s.links[n] with inFlight := some ⟨o, s.links[n].failures + 1⟩, lck := .clocking } :=
  rfl

@[simp] theorem State.setSession_links (s : State) (n : LinkId) (x : Session) :
    (s.setSession n x).links = upd s.links n { s.links[n] with session := x } :=
  rfl

@[simp] theorem State.leaveUp_links (s : State) (n : LinkId) (x : Session) :
    (s.leaveUp n x).links = upd s.links n (s.links[n].leaveUp x) :=
  rfl

@[simp] theorem State.goodExchange_links (s : State) (n : LinkId) :
    (s.goodExchange n).links =
      upd s.links n { s.links[n] with inFlight := none, lck := .high, failures := 0 } :=
  rfl

/-! ## Power-on reset (R185) -/

/-- Beginning the hold again changes nothing. -/
theorem State.holdReset_idem (s : State) : s.holdReset.holdReset = s.holdReset := by
  simp [State.holdReset]

/-- A link that power-on enables begins at once as the values after reset give (R153, R169). -/
theorem LinkEngine.inReset_probed :
    { LinkEngine.inReset with
      session := .probing (later 0 Config.probeTime), inFlight := some ⟨.identify, 1⟩, lck := .clocking } =
    LinkEngine.initial :=
  rfl

/-- A walk that has every link enter PROBING changes the links alone (R155). -/
theorem State.foldl_probe (l : List LinkId) (s : State) (h : s.mask = 0xFF) :
    l.foldl (fun t n => if t.enabled n then t.probe n else t) s =
      { s with
        links := l.foldl (fun v n => upd v n
          { v[n] with
            session := .probing (later s.deskTime Config.probeTime)
            inFlight := some ⟨.identify, v[n].failures + 1⟩, lck := .clocking }) s.links } := by
  induction l generalizing s with
  | nil => rfl
  | cons n l ih =>
    have he : s.enabled n = true := by
      rw [State.enabled, h]
      revert n
      decide
    simp only [List.foldl_cons, he, if_true]
    rw [ih (s.probe n) h]
    simp [State.probe]

/-- The part as the hold ends: the values after power-on, but for the levels of the chip select pins and the commands that
wait (R185). -/
theorem State.leaveReset_eq (s : State) :
    s.leaveReset = { State.reset with ports := s.holdReset.ports, pending := s.pending } := by
  unfold State.leaveReset
  rw [State.foldl_probe _ _ rfl]
  have : (List.finRange 8).foldl (fun v n => upd v n
      { v[n] with
        session := .probing (later 0 Config.probeTime)
        inFlight := some ⟨.identify, v[n].failures + 1⟩, lck := .clocking }) (Vector.replicate 8 LinkEngine.inReset)
      = (Vector.replicate 8 LinkEngine.initial : Vector LinkEngine 8) := by decide +kernel
  simp only [State.holdReset]
  rw [show State.reset.deskTime = 0 from rfl, this]
  rfl

end Sys2Proof.Machine
end

