-- ==== Sys2Proof/Tests/Slice0.lean ====
section
/-! SUPPORT. Tests of this model and witnesses of its statements. The expected results of the tests are worked out by hand
from the rules each docstring names, or are a row of the worked example it names. A witness theorem shows a concrete state and
operands that meet the hypotheses of one obligation, one for each clause, at the bounds of the clause where it has bounds. -/

open Sys2Proof Sys2Proof.Machine

set_option Elab.async false

namespace Sys2Proof.Tests

/-! ## The states the tests stand on -/

/-- The state a command leaves. -/
def after (c : Instr) (s : State) : State :=
  match exec c s with
  | .next t => t
  | .fault _ => s
  | .refused _ => s

/-- Port `p` WORKING on `r`. -/
def working (s : State) (p : Port) (r : Request) : State :=
  s.setPort p { s.ports[p] with state := .working r }

/-- A transaction on port `p` that reads as `x`, its chip select low. -/
def inTxn (s : State) (p : Port) (x : Reading) : State :=
  s.setPort p
    { s.ports[p] with
      csLow := true
      txn := some
        { statusByte := statusByteOf p s.ports[p] s.queues[p], count := s.queues[p].length,
          left := s.queues[p].length, reading := x, out := [] } }

/-- The link engine `n` of `s` changed by `f`. -/
def withLink (s : State) (n : LinkId) (f : LinkEngine → LinkEngine) : State :=
  s.setLink n (f s.links[n])

/-- A MOMENTARY set with lamp mode HELD and lamp value ON. -/
def momentarySet : RawAttrs := ⟨0, 0x1234, 0xFF, 0xFF, 2, 1⟩

/-- A SELECT set for group `g` with lamp mode SELECTED. -/
def selectSet (g : Byte) : RawAttrs := ⟨4, 0x1234, 0xFF, g, 4, 0⟩

/-- A TOGGLE set with lamp mode LATCH. -/
def toggleSet : RawAttrs := ⟨3, 0x1234, 0xFF, 0xFF, 3, 0⟩

def hostsKey : Binding :=
  { owner := some 1, gen := 7, hold := .opened, cls := .momentary, code := 0xABCD, lampMode := .held, lampValue := .off }

def heldKey : HeldRecord :=
  { pos := 5, pressedAt := 90, openedTo := some ⟨1, 7⟩, closingDue := true, phase := .held, repeatCount := 0,
    resync := false }

def theAsk : Ask :=
  { asker := 2, holder := 1, pos := 5, set := ⟨.momentary, 0x1234, .held, .on⟩, deadline := 2100 }

def theGroup : SelGroup := { owner := 1, mode := .strict, selected := some 6, count := 1 }

def panelUp : Session := .up ⟨0x10, 64⟩ .image none

/-- A desk in use at desk time 100. Host 1 owns keys 5 (MOMENTARY, pressed, asked for by host 2), 6 (SELECT, selected
in its group 3), 7 (TOGGLE, ON, FIXED), 8 (lamp mode HOST) and 9 (REPEATING, pressed); panel 0 is UP. -/
def desk : State :=
  let a := ((State.reset.setBinding 5 hostsKey).setBinding 6
    { hostsKey with cls := .select 3, lampMode := .selected }).setBinding 7
    { hostsKey with cls := .toggle true, hold := .fixed, lampMode := .latch }
  let b := (a.setBinding 8 { hostsKey with lampMode := .host }).setBinding 9 { hostsKey with cls := .repeating 3 }
  let c := (b.setGroup 3 (some theGroup)).setAsk 0 (some theAsk)
  let d := withLink c 0 (fun l => { l with session := panelUp, inFlight := none, lck := .high })
  working { d with held := [heldKey, { heldKey with pos := 9, phase := .delay 600 }], deskTime := 100 } 2
    (.yieldAsk 5 momentarySet)

/-- Two entries for the queue of host 1. -/
def twoNotices : List Notice :=
  [{ kind := .press, resync := true, lost := false, pos := 515, code := 0x1234, gen := 9, extra := 0, stamp := 0x0102 },
   { kind := .yielded, resync := false, lost := false, pos := 5, code := 0xABCD, gen := 7, extra := 2, stamp := 0x0103 }]

/-- `desk` with `twoNotices` waiting for host 1. -/
def noted : State := { desk with queues := upd desk.queues 1 twoNotices, noteLow := upd desk.noteLow 1 true }

theorem working_on (s : State) (p : Port) (r : Request) : WorkingOn (working s p r) p r := by
  simp [working, WorkingOn]

/-! ## Well-formed terms -/

/-- A kind byte of another transaction is no STATUS (R172). -/
theorem test_status_kinds_refused :
    (Instr.status 0 0xA5).wellFormed = false ∧ (Instr.status 0 0x5A).wellFormed = false ∧
    (Instr.status 0 0x3C).wellFormed = false ∧ (Instr.status 0 0xC3).wellFormed = false ∧
    (Instr.status 0 0x00).wellFormed = true ∧ (Instr.status 3 0x42).wellFormed = true := by decide

/-- A key count outside 1 to 128 is no good IDENT (R142). -/
theorem test_ident_counts_refused :
    (Instr.ident 0 1 0).wellFormed = false ∧ (Instr.ident 0 1 129).wellFormed = false ∧
    (Instr.ident 0 1 1).wellFormed = true ∧ (Instr.ident 0 1 128).wellFormed = true := by decide

/-- The table gives no row any bits: no word spells a command. -/
theorem test_no_words : decodeTableWord 8 0 = none ∧ decodeTableWord 16 0x1234 = none := by decide

/-- Key `k` of panel `n`. -/
def key (n : LinkId) (k : Fin 128) : KeyPos := posOf n k

/-- A binding of host `h` with lamp value OFF. -/
def owned (h : Port) (g : Byte) (hold : Hold) (c : KeyClass) (code : Half) (m : LampMode) : Binding :=
  { owner := some h, gen := g, hold := hold, cls := c, code := code, lampMode := m, lampValue := .off }

/-- A held record opened to `o`, pressed at desk time 0. -/
def recordOf (q : KeyPos) (o : Option Opened) (due : Bool) (ph : Phase) (n : Nat) : HeldRecord :=
  { pos := q, pressedAt := 0, openedTo := o, closingDue := due, phase := ph, repeatCount := n, resync := false }

/-- The state after reset with panel `n` in UP and nothing in flight on its link. -/
def withPanel (n : LinkId) (keyCount : Nat) : State :=
  withLink State.reset n (fun l => { l with session := .up ⟨7, keyCount⟩ .poll none, inFlight := none, lck := .high })

/-- What a notice says, but for its code and time. -/
def gist (n : Notice) : NoticeKind × Nat × Nat × Nat :=
  (n.kind, n.pos.1, n.gen.toNat, n.extra.toNat)

/-! ## Tests: transactions -/

/-- The hold: the pins' levels alone are kept, and LCKn is low with no exchange in flight (R153, R185). -/
theorem test_powerOn_holds :
    (after .powerOn (inTxn desk 1 .unread)).ports[1] = { PortUnit.initial with csLow := true } ∧
    (after .powerOn desk).table[5] = Binding.unbound 0 ∧
    (after .powerOn desk).links[0] = LinkEngine.inReset ∧
    (after .powerOn (inTxn desk 1 .unread)).sdoDriven 1 = false := by decide +kernel

/-- The hold ended: each link is PROBING with its first IDENTIFY, its timer at 250 (R155, R169). -/
theorem test_powerOn_leaves :
    let t := after .powerOn (after .powerOn desk)
    t.links[7] = LinkEngine.initial ∧ t.resetLow = false ∧
    (after (.chipSelectFall 1) (after .powerOn desk)).ports[1].txn = none := by decide +kernel

/-- 65535 is followed by 0 (R182). -/
theorem test_deskTick_wraps : (after .deskTick { desk with deskTime := 65535 }).deskTime = 0 := by decide +kernel

/-- The fall fixes status byte (ANSWERED, NOTICE, URGENT: 0x0E) and count, and makes the host PRESENT (R60, R116,
R173). -/
theorem test_chipSelectFall :
    let t := after (.chipSelectFall 1)
      { noted with
        presence := upd noted.presence 1 .lapsed
        ports := upd noted.ports 1 { noted.ports[1] with state := .answered ⟨.ok, 0x17, []⟩ } }
    t.ports[1].txn = some ⟨0x0E, 2, 2, .unread, []⟩ ∧ t.presence[1] = .present := by decide +kernel

/-- An unknown kind byte reads as STATUS and clears a lapse flag that was shown (R172, R174). -/
theorem test_status :
    let s := inTxn { desk with ports := upd desk.ports 1 { desk.ports[1] with lapseFlag := true } } 1 .unread
    (after (.status 1 0x77) s).ports[1].lapseFlag = false := by decide +kernel

/-- Example 11.5-1 at 200: NOT_READY, the code of YIELD ASK, length 0. -/
theorem test_fetch_not_ready :
    ((after (.fetch 2) (inTxn desk 2 .unread)).ports[2].txn.map Transaction.reading)
      = some (.fetch [0x17, 0x20, 0x00] false) := by decide +kernel

/-- The last byte of an answer makes the port IDLE (R180). -/
theorem test_answerConsumed :
    let s := inTxn (desk.setPort 1 { desk.ports[1] with state := .answered ⟨.ok, 0x17, []⟩ }) 1 (.fetch [0] true)
    (after (.answerConsumed 1) s).ports[1].state = .idle := by decide +kernel

/-- The first bytes of the head entry: kind, then RESYNC in bit 15 of the word of position 515 (R191). -/
theorem test_notices :
    let s := inTxn noted 1 (.notices true 0)
    ((after (.notices 1) (after (.notices 1) (after (.notices 1) s))).ports[1].txn.map Transaction.out)
      = some [0x01, 0x82, 0x03] := by decide +kernel

/-- The tenth byte removes the head entry, and the urgent line follows the rest (R117, R121). -/
theorem test_noticeRemoval :
    let t := after (.noticeRemoval 1) (inTxn noted 1 (.notices true 9))
    t.queues[1] = twoNotices.tail ∧ t.noteLow[1] = true ∧
    (after (.noticeRemoval 1) t).noteLow[1] = false := by decide +kernel

/-- CANCEL ends the port's own ask; the holder hears of id 0, reason 1 (R51, R191). -/
theorem test_cancel :
    let t := after (.cancel 2) (inTxn desk 2 .unread)
    t.asks[0] = none ∧ t.ports[2].state = .answered ⟨.cancelled, 0x20, []⟩ ∧
    (t.queues[1]).map (fun n => (n.kind, n.pos, n.gen, n.extra)) = [(.askClosed, 5, 7, 1)] := by decide +kernel

/-- The rise restarts the lapse timer from the present time (R57). -/
theorem test_chipSelectRise :
    (after (.chipSelectRise 1) (inTxn desk 1 .status)).ports[1].lapseStart = some 100 := by decide +kernel

/-- The codes of R189: each kind byte spells its command, and a SUBMIT acts as chip select rises (R172). -/
theorem test_kind_codes :
    kindCommand 1 0x5A = some (.fetch 1) ∧ kindCommand 1 0x3C = some (.notices 1) ∧ kindCommand 1 0xC3 = some (.cancel 1) ∧
    kindCommand 1 0xA5 = none ∧ kindCommand 1 0x00 = some (.status 1 0) ∧
    endCommand 1 [0xA5, 0x17] = .submit 1 [0x17] ∧ endCommand 1 [0x5A, 0x17] = .chipSelectRise 1 := by decide

/-- A SET LINKS from port 1 is answered SUPERVISOR; LEAVE with a byte to spare is taken (R176). -/
theorem test_submit :
    (after (.submit 1 [0x70, 0xFF, 5, 20]) (inTxn desk 1 .unread)).ports[1].state
      = .answered ⟨.supervisor, 0x70, []⟩ ∧
    (after (.submit 1 [0x17, 0x55]) (inTxn desk 1 .unread)).ports[1].state = .working .leave := by decide +kernel

/-- A SUBMIT of two bytes clocks out the status byte of port 1 in IDLE, 0x00, and 0x00 twice more (R172). -/
theorem test_submit_clocks_zeros :
    (after (.submit 1 [0x17, 0x55]) (inTxn desk 1 .unread)).ports[1].lastOut = [0, 0, 0] ∧
    (after (.submit 2 []) (inTxn desk 2 .unread)).ports[2].lastOut = [1] := by decide +kernel

/-! ## Tests: requests -/

/-- Example 2.2-1, the mixed CLAIM: a member and the selected member leave their group, an unowned key is taken, a
TOGGLE that stays keeps its latch; DESELECTED with LOST for key 6:3 alone. -/
theorem test_claim_mixed :
    let s := ((((withPanel 6 128).setBinding (key 6 2) (owned 1 4 .opened (.select 5) 0 .selected)).setBinding (key 6 3)
      (owned 1 4 .pinned (.select 5) 0 .selected)).setBinding (key 6 4) (Binding.unbound 11)).setBinding (key 6 5)
      (owned 1 2 .opened (.toggle true) 0 .latch)
    let t := after (.claim 1) (working (s.setGroup 5 (some ⟨1, .strict, some (key 6 3), 2⟩)) 1
      (.claim 770 4 ⟨3, 0x0300, 9, 99, 3, 0⟩))
    t.table[key 6 2] = owned 1 4 .opened (.toggle false) 0x0300 .latch ∧
    t.table[key 6 3] = owned 1 4 .pinned (.toggle false) 0x0300 .latch ∧
    t.table[key 6 4] = owned 1 12 .opened (.toggle false) 0x0300 .latch ∧
    t.table[key 6 5] = owned 1 2 .opened (.toggle true) 0x0300 .latch ∧
    t.groups[5] = some ⟨1, .strict, none, 0⟩ ∧
    (t.queues[1]).map (fun n => (gist n, n.lost)) = [((.deselected, 771, 4, 5), true)] := by decide +kernel

/-- Example 1.2-1: the range fails at offset 4 with OWNED, and nothing is claimed. -/
theorem test_claim_owned :
    let s := State.reset.setBinding 398 (owned 1 1 .opened .momentary 0 .dark)
    let t := after (.claim 2) (working s 2 (.claim 394 8 ⟨0, 0x0120, 0, 0, 2, 0⟩))
    t.ports[2].state = .answered ⟨.owned, 0x10, [4]⟩ ∧ t.table[394] = Binding.unbound 0 := by decide +kernel

/-- Example 2.3-1, RELEASE with keys held: three notices in order, the records left opened to none, generations +1. -/
theorem test_release_held :
    let s := ((((withPanel 4 128).setBinding 512 (owned 1 3 .opened .momentary 0x10 .dark)).setBinding 513
      (owned 1 3 .pinned (.select 6) 0x11 .dark)).setBinding 514 (owned 1 5 .opened (.repeating 1) 0x12 .dark)).setBinding 515
      (owned 1 3 .opened (.toggle true) 0x13 .dark)
    let t := after (.release 1) (working
      { s.setGroup 6 (some ⟨1, .loose, some 513, 3⟩) with
        held := [recordOf 512 (some ⟨1, 3⟩) true .held 0, recordOf 514 (some ⟨1, 5⟩) true (.repeating 9 50) 7,
          recordOf 515 (some ⟨1, 3⟩) false .held 0] } 1 (.release 512 4))
    (t.queues[1]).map gist = [(.withdrawn, 512, 3, 0), (.deselected, 513, 3, 6), (.withdrawn, 514, 5, 7)] ∧
    t.held = [recordOf 512 none false .held 0, recordOf 514 none false .held 7, recordOf 515 none false .held 0] ∧
    t.table[514] = Binding.unbound 6 ∧ t.table[515] = Binding.unbound 4 ∧
    t.groups[6] = some ⟨1, .loose, none, 2⟩ := by decide +kernel

/-- Releasing a key asked for: generation +2 under the asker, WITHDRAWN then YIELDED for the holder (R25, R48). -/
theorem test_release_grants :
    let t := after (.release 1) (working desk 1 (.release 5 1))
    t.table[5] = { owner := some 2, gen := 9, hold := .opened, cls := .momentary, code := 0x1234, lampMode := .held,
                   lampValue := .on } ∧
    (t.queues[1]).map (fun n => (n.kind, n.gen)) = [(.withdrawn, 7), (.yielded, 7)] ∧
    t.ports[2].state = .answered ⟨.granted, 0x20, [9]⟩ := by decide +kernel

/-- PIN ends the ask REFUSED, with no notice (R28). -/
theorem test_pin :
    let t := after (.pin 1) (working desk 1 (.pin 5 1))
    t.table[5].hold = .pinned ∧ t.ports[2].state = .answered ⟨.refused, 0x20, []⟩ ∧ t.queues[1] = [] := by decide +kernel

/-- UNPIN leaves the ask alone (R29). -/
theorem test_unpin : (after (.unpin 1) (working desk 1 (.unpin 5 1))).asks[0] = some theAsk := by decide +kernel

/-- FIX of a SELECT key is BAD_ATTR; of the key asked for it ends the ask FIXED (R30). -/
theorem test_fix :
    (after .fix (working desk 0 (.fix 5 2))).ports[0].state = .answered ⟨.badAttr, 0x14, [1]⟩ ∧
    (after .fix (working desk 0 (.fix 5 1))).ports[2].state = .answered ⟨.fixed, 0x20, []⟩ := by decide +kernel

/-- LAMP shows at once where the mode is HOST, and is BAD_ATTR where it is not (R32, R127). -/
theorem test_lamp :
    (after (.lamp 1) (working desk 1 (.lamp 8 1 2))).derived[8] = .slow ∧
    (after (.lamp 1) (working desk 1 (.lamp 8 2 2))).ports[1].state = .answered ⟨.badAttr, 0x15, [1]⟩ := by decide +kernel

/-- CLEAR TABLE at a FIXED key: unbound, generation +1 (R34). -/
theorem test_clearTable_at_a_key : (desk.clearPos 7).table[7] = Binding.unbound 8 := by decide +kernel

/-- LEAVE at a key: released without a notice, the ask granted; a FIXED key stays (R36, R48). -/
theorem test_leave_at_a_key :
    (State.leavePos 1 desk 5).queues[1] = [] ∧ (State.leavePos 1 desk 5).table[5].owner = some 2 ∧
    (State.leavePos 1 desk 7).table[7] = desk.table[7] := by decide +kernel

/-- The layout of READ BINDING for a FIXED TOGGLE key that is ON (R192). -/
theorem test_readBinding :
    (after (.readBinding 3) (working desk 3 (.readBinding 7))).ports[3].state
      = .answered ⟨.ok, 0x18, [1, 7, 2, 3, 0xAB, 0xCD, 0xFF, 0xFF, 3, 0, 1]⟩ := by decide +kernel

/-- An ask for a key that is PINNED, FIXED or the requester's own (R42). -/
theorem test_yieldAsk_refused :
    (after (.yieldAsk 3) (working desk 3 (.yieldAsk 7 momentarySet))).ports[3].state
      = .answered ⟨.fixed, 0x20, []⟩ ∧
    (after (.yieldAsk 1) (working desk 1 (.yieldAsk 6 momentarySet))).ports[1].state
      = .answered ⟨.self, 0x20, []⟩ := by decide +kernel

/-- Example 3.4-1 at 64,500: the lowest free id 2, the deadline 964 across the wrap, YIELD_ASKED with id 2 and asker
3. -/
theorem test_yieldAsk_entry :
    let s := State.reset.setBinding 808 (owned 0 3 .opened .momentary 0x0711 .dark)
    let u := (s.setAsk 0 (some ⟨2, 3, 1, ⟨.momentary, 0, .dark, .off⟩, 9⟩)).setAsk 1
      (some ⟨0, 3, 2, ⟨.momentary, 0, .dark, .off⟩, 9⟩)
    let t := after (.yieldAsk 3) (working { u with deskTime := 64500 } 3 (.yieldAsk 808 momentarySet))
    (t.asks[2]).map (fun a => (a.holder, a.deadline)) = some (0, 964) ∧
    (t.queues[0]).map gist = [(.yieldAsked, 808, 3, 0x0203)] := by decide +kernel

/-- Example 3.3-1 at 20,900: WITHDRAWN then YIELDED to host 1, GRANTED with generation 7, the new lamp ON. -/
theorem test_yieldReply_grant :
    let s := (withPanel 3 128).setBinding 401 (owned 1 6 .opened (.repeating 3) 0x0450 .held)
    let u := (working s 2 (.yieldAsk 401 ⟨0, 0x0200, 0, 0, 1, 1⟩)).setAsk 0
      (some ⟨2, 1, 401, ⟨.momentary, 0x0200, .host, .on⟩, 22000⟩)
    let t := after (.yieldReply 1) (working
      { u with held := [recordOf 401 (some ⟨1, 6⟩) true (.repeating 21000 75) 9], deskTime := 20900 } 1 (.yieldReply 0 1))
    (t.queues[1]).map gist = [(.withdrawn, 401, 6, 9), (.yielded, 401, 6, 2)] ∧
    t.ports[2].state = .answered ⟨.granted, 0x20, [7]⟩ ∧ t.ports[1].state = .answered ⟨.ok, 0x21, []⟩ ∧
    t.table[401] = ⟨some 2, 7, .opened, .momentary, 0x0200, .host, .on⟩ ∧ t.derived[401] = .on := by decide +kernel

/-- A reply from another host is STALE (R49). -/
theorem test_yieldReply_stale :
    (after (.yieldReply 3) (working desk 3 (.yieldReply 0 1))).ports[3].state
      = .answered ⟨.stale, 0x21, []⟩ := by decide +kernel

/-- Example 3.4-1 at 964: ASK_CLOSED with id 2, timed out, and TIMEOUT; at 65,000, before the wrap, nothing. -/
theorem test_askDeadline :
    let s := State.reset.setBinding 808 (owned 0 3 .opened .momentary 0x0711 .dark)
    let u := (working s 3 (.yieldAsk 808 momentarySet)).setAsk 2
      (some ⟨3, 0, 808, ⟨.momentary, 0x1234, .held, .on⟩, 964⟩)
    let t := after (.askDeadline 2) { u with deskTime := 964 }
    t.ports[3].state = .answered ⟨.timeout, 0x20, []⟩ ∧ (t.queues[0]).map gist = [(.askClosed, 808, 3, 0x0202)] ∧
    (after (.askDeadline 2) { u with deskTime := 65000 }).ports[3].state ≠ .answered ⟨.timeout, 0x20, []⟩ := by
  decide +kernel

/-- Example 3.6-1 at 35,000: both asks granted in ascending id, the notices in their order, the groups' counts 2 and
5. -/
theorem test_hostLapse :
    let s := ((withPanel 1 128).setBinding 132 (owned 1 6 .opened (.repeating 0) 0x0104 .dark)).setBinding 265
      (owned 1 2 .opened (.select 7) 0x0209 .dark)
    let a := (s.setGroup 7 (some ⟨1, .strict, some 265, 3⟩)).setGroup 11 (some ⟨3, .strict, none, 4⟩)
    let b := working (working a 2 (.yieldAsk 132 ⟨1, 0x0800, 0, 0, 0, 0⟩)) 3 (.yieldAsk 265 ⟨4, 0x0900, 0, 11, 0, 0⟩)
    let c := (b.setAsk 0 (some ⟨2, 1, 132, ⟨.pressOnly, 0x0800, .dark, .off⟩, 36000⟩)).setAsk 3
      (some ⟨3, 1, 265, ⟨.select 11, 0x0900, .dark, .off⟩, 36000⟩)
    let t := after (.hostLapse 1)
      { c.setPort 1 { PortUnit.initial with lapseTime := 5, lapseStart := some 30000 } with
        held := [recordOf 132 (some ⟨1, 6⟩) true (.repeating 35500 100) 12], deskTime := 35000 }
    (t.queues[1]).map gist =
      [(.withdrawn, 132, 6, 12), (.yielded, 132, 6, 2), (.deselected, 265, 2, 7), (.yielded, 265, 2, 3)] ∧
    t.groups[7] = some ⟨1, .strict, none, 2⟩ ∧ t.groups[11] = some ⟨3, .strict, none, 5⟩ ∧
    t.ports[3].state = .answered ⟨.granted, 0x20, [3]⟩ ∧ t.presence[1] = .lapsed := by decide +kernel

/-- A FREE group opens for the requester; another host's is GROUP_OWNER (R98). -/
theorem test_openGroup :
    (after (.openGroup 2) (working desk 2 (.openGroup 31 1))).groups[31] = some ⟨2, .loose, none, 0⟩ ∧
    (after (.openGroup 2) (working desk 2 (.openGroup 3 1))).ports[2].state
      = .answered ⟨.groupOwner, 0x30, []⟩ := by decide +kernel

/-- A group with a member is GROUP_BUSY (R99). -/
theorem test_closeGroup :
    (after (.closeGroup 1) (working desk 1 (.closeGroup 3))).ports[1].state
      = .answered ⟨.groupBusy, 0x31, []⟩ := by decide +kernel

/-- CLEAR SELECTION puts the selected lamp out and offers no notice (R100). -/
theorem test_clearSelection :
    let t := after (.clearSelection 1) (working (desk.rederive 6) 1 (.clearSelection 3))
    (desk.rederive 6).derived[6] = .on ∧ t.derived[6] = .off ∧ t.queues[1] = [] := by decide +kernel

/-- READ GROUP of an OPEN and of a FREE group (R101, R192). -/
theorem test_readGroup :
    (after (.readGroup 0) (working desk 0 (.readGroup 3))).ports[0].state
      = .answered ⟨.ok, 0x33, [1, 1, 0, 0, 6, 1]⟩ ∧
    (after (.readGroup 0) (working desk 0 (.readGroup 4))).ports[0].state
      = .answered ⟨.ok, 0x33, [0, 0xFF, 0xFF, 0xFF, 0xFF, 0]⟩ := by decide +kernel

/-- A floor above the period is BAD_ATTR; a floor equal to it is taken (R85). -/
theorem test_setProfile :
    (after .setProfile (working desk 0 (.setProfile 7 1 5 15 6))).ports[0].state
      = .answered ⟨.badAttr, 0x40, []⟩ ∧
    (after .setProfile (working desk 0 (.setProfile 7 1 5 15 5))).profiles[7] = ⟨1, 5, 15, 5⟩ := by decide +kernel

/-- Profile 4 after reset: 250, 100, 8, 20 ms in units of 10 ms (R84, R86). -/
theorem test_readProfile :
    (after (.readProfile 3) (working desk 3 (.readProfile 4))).ports[3].state
      = .answered ⟨.ok, 0x41, [25, 10, 8, 2]⟩ := by decide +kernel

/-- Line mode URGENT releases a line that no urgent notice holds (R121, R122). -/
theorem test_setPort :
    let s := { noted with queues := upd noted.queues 1 (twoNotices.take 1) }
    (after (.setPort 1) (working s 1 (.setPort 1 60))).noteLow[1] = false ∧
    (after (.setPort 1) (working s 1 (.setPort 1 61))).ports[1].state = .answered ⟨.badAttr, 0x50, []⟩ := by decide +kernel

/-- READ HELD: two records in press order, the second in DELAY with its due 600 (R79, R192). -/
theorem test_readHeld :
    (after (.readHeld 0) (working desk 0 .readHeld)).ports[0].state
      = .answered ⟨.ok, 0x60, [2, 0x40, 0x05, 1, 7, 0, 90, 0, 0, 0, 0, 0, 0,
          0x50, 0x09, 1, 7, 0, 90, 0x02, 0x58, 0, 0, 0, 0]⟩ := by decide +kernel

/-- READ PANEL of a panel in UP (R168, R192). -/
theorem test_readPanel :
    (after (.readPanel 3) (working desk 3 (.readPanel 0))).ports[3].state
      = .answered ⟨.ok, 0x61, [3, 1, 0x10, 64, 0, 0, 0, 0]⟩ := by decide +kernel

/-- SET LINKS hands link 7 its disabling and waits; a poll interval of 21 is BAD_ATTR (R166, R183). -/
theorem test_setLinks :
    let t := after .setLinks (working desk 0 (.setLinks 0x7F 2 1))
    t.links[7].handed = some false ∧ t.links[0].handed = none ∧ t.ports[0].state = .working (.setLinks 0x7F 2 1) ∧
    (after .setLinks (working desk 0 (.setLinks 0x7F 21 1))).ports[0].state
      = .answered ⟨.badAttr, 0x70, []⟩ := by decide +kernel

/-- READ DESK: identification 0x41, time 100, mask, 5 ms, 20 × 100 ms (R184, R192). -/
theorem test_readDesk :
    (after (.readDesk 3) (working desk 3 .readDesk)).ports[3].state
      = .answered ⟨.ok, 0x71, [0x41, 0, 100, 0xFF, 5, 20]⟩ := by decide +kernel

/-- DESK RESET at a key: a key asked for is unbound with its ask RESET; a FIXED TOGGLE key stays, OFF (R17, R53). -/
theorem test_deskReset_at_a_key :
    (desk.resetPos 5).table[5] = Binding.unbound 8 ∧
    (desk.resetPos 5).ports[2].state = .answered ⟨.reset, 0x20, []⟩ ∧
    (desk.resetPos 7).table[7] = { desk.table[7] with cls := .toggle false } := by decide +kernel

/-! ## Tests: links and keys -/

/-- Link 0 of `desk` with order `o` in flight. -/
def sent (o : LinkOrder) : State :=
  withLink desk 0 (fun l => { l with inFlight := some ⟨o, 1⟩, lck := .clocking })

/-- An enabling from OFF begins PROBING with an IDENTIFY (R155). -/
theorem test_linkEnable :
    let s := withLink desk 7 (fun l => { l with session := .off, inFlight := none, lck := .low, handed := some true })
    (after (.linkEnable 7) s).links[7].session = .probing 350 ∧
    (after (.linkEnable 7) s).links[7].inFlight = some ⟨.identify, 1⟩ := by decide +kernel

/-- The disabling of a panel in UP: held keys released with LOST, PANEL_DOWN to every host (R78, R163, R165). -/
theorem test_linkDisable :
    let t := after (.linkDisable 0) (withLink desk 0 (fun l => { l with handed := some false }))
    t.held = [] ∧ (t.queues[1]).map (fun n => (n.kind, n.lost)) = [(.release, true), (.release, true), (.panelDown, false)] ∧
    (t.queues[3]).map (fun n => n.kind) = [.panelDown] ∧ t.links[0].lostCount = 1 := by decide +kernel

/-- The probe timer that runs out at 250 (R156). -/
theorem test_probeTimer :
    let s := withLink desk 4 (fun l => { l with inFlight := none, lck := .high })
    (after (.probeTimer 4) { s with deskTime := 249 }).links[4].inFlight = none ∧
    (after (.probeTimer 4) { s with deskTime := 250 }).links[4].inFlight = some ⟨.identify, 1⟩ := by decide +kernel

/-- HOLDOFF over, PROBING begins (R164). -/
theorem test_holdoffTimer :
    let s := withLink desk 4 (fun l => { l with session := .holdoff 100, inFlight := none, lck := .high })
    (after (.holdoffTimer 4) s).links[4].session = .probing 350 := by decide +kernel

/-- A POLL carries L, and the next waits for the poll interval (R160, R161). -/
theorem test_poll :
    let s := withLink desk 0 (fun l => { l with bitL := true, session := .up ⟨0x10, 64⟩ .poll (some 95) })
    (after (.poll 0) s).links[0].inFlight = some ⟨.poll true, 1⟩ ∧
    (after (.poll 0) { s with deskTime := 99 }).links[0].inFlight = none := by decide +kernel

/-- Example 10.3-1 at 252: a good IDENT begins SYNCING with cause NEW and the IMAGE order; key count 0 is a failure
(R144). -/
theorem test_ident :
    (after (.ident 2 7 96) State.reset).links[2].session = .syncing .new ⟨7, 96⟩ .identify ∧
    (after (.ident 2 7 96) State.reset).links[2].inFlight = some ⟨.image, 1⟩ ∧
    (after (.ident 2 7 0) State.reset).links[2].failedCount = 1 := by decide +kernel

/-- Example 4.5-1: the reconciliation of panel 3 at 7,000 with keys 5, 8 and 9 down. -/
theorem test_imageReply :
    let s := (((withPanel 3 128).setBinding 388 (owned 0 2 .opened .momentary 0x0304 .dark)).setBinding 392
      (owned 0 1 .opened (.toggle false) 0x0308 .dark)).setBinding 393 (owned 0 5 .opened (.repeating 0) 0x0309 .dark)
    let u := withLink s 3 (fun l => { l with session := .syncing .lost ⟨7, 128⟩ .poll, inFlight := some ⟨.image, 1⟩ })
    let t := after (.imageReply 3 0x320)
      { u with held := [recordOf 1 none false .held 0, recordOf 388 (some ⟨0, 2⟩) true .held 0, recordOf 389 none false .held 0],
               deskTime := 7000 }
    (t.queues[0]).map (fun n => (gist n, n.resync)) =
      [((.release, 388, 2, 0), true), ((.toggled, 392, 1, 1), true), ((.press, 393, 5, 0), true),
       ((.panelResync, 384, 0, 0), false)] ∧
    t.held.map (fun r => (r.pos.1, r.resync, r.phase)) =
      [(1, false, .held), (389, false, .held), (392, true, .held), (393, true, .delay 7500)] := by decide +kernel

/-- Example 9.7-1, exchanges 1 and 4 with key count 64: the press of key 5 is handed on, key 70 only turns L over; a
repeated edge bit is a duplicate. -/
theorem test_edge :
    let s := withLink (withPanel 4 64) 4 (fun l => { l with inFlight := some ⟨.poll false, 1⟩ })
    (after (.edge 4 true true 5) s).links[4].edges = [⟨true, 517, true⟩] ∧
    (after (.edge 4 true true 70) s).links[4].edges = [] ∧ (after (.edge 4 true true 70) s).links[4].bitL = true ∧
    (after (.edge 4 false true 5) s).links[4].edges = [] := by decide +kernel

/-- Example 8.4-1 at 801: the LAMP of block 0 carries ON for key 3 (R130, R160). -/
theorem test_nothing :
    let s := { withPanel 2 128 with
      sent := Vector.replicate 1024 (some .off), derived := upd State.reset.derived 259 .on,
      dirty := upd (Vector.replicate 128 false) 32 true }
    let t := after (.nothing 2) (withLink s 2 (fun l => { l with inFlight := some ⟨.poll false, 1⟩ }))
    t.links[2].inFlight = some ⟨.lamp 0 #v[.off, .off, .off, .on, .off, .off, .off, .off], 1⟩ ∧
    (t.links[2].inFlight.map (fun x => x.order.message)) = some ⟨0x54, [0, 0x40, 0]⟩ := by decide +kernel

/-- LOST in UP: SYNCING with cause LOST, and the IMAGE order (R162). -/
theorem test_lost :
    (after (.lost 0) (sent (.poll false))).links[0].session = .syncing .lost ⟨0x10, 64⟩ .poll ∧
    (after (.lost 0) (sent (.poll false))).links[0].inFlight = some ⟨.image, 1⟩ := by decide +kernel

/-- An accepted LAMP of block 2. -/
def block : Vector Lamp 8 := #v[.off, .on, .slow, .fast, .off, .off, .off, .on]

/-- ACCEPT hands on the order's block; to a POLL it is a wrong reply (R132, R144). -/
theorem test_accept :
    (after (.accept 0) (sent (.lamp 2 block))).links[0].acceptances = [⟨2, block⟩] ∧
    (after (.accept 0) (sent (.poll false))).links[0].failures = 1 := by decide +kernel

/-- AGAIN is a failed exchange, and the order is sent again as attempt 2 (R144, R147). -/
theorem test_again :
    (after (.again 0) (sent (.poll false))).links[0].inFlight = some ⟨.poll false, 2⟩ := by decide +kernel

/-- Example 10.5-1 at 10,006: the third failure in a row ends the session until 11,006, RELEASE with LOST before
PANEL_DOWN. -/
theorem test_exchangeFailed :
    let s := (withPanel 2 96).setBinding 266 (owned 1 3 .opened .momentary 0x020A .dark)
    let u := withLink s 2 (fun l => { l with inFlight := some ⟨.poll false, 3⟩, failures := 2, failedCount := 3 })
    let t := after (.exchangeFailed 2 .noReply)
      { u with held := [recordOf 266 (some ⟨1, 3⟩) true .held 0], deskTime := 10006 }
    t.links[2].session = .holdoff 11006 ∧ t.links[2].failedCount = 4 ∧ t.links[2].lostCount = 1 ∧
    (t.queues[1]).map (fun n => (gist n, n.lost)) =
      [((.release, 266, 3, 0), true), ((.panelDown, 256, 0, 0), false)] := by decide +kernel

/-- Example 8.4-1 at 803 and 807: the stale carry writes ON and leaves the block dirty; the next leaves it clean. -/
theorem test_lampAcceptance :
    let s := { withPanel 2 128 with sent := Vector.replicate 1024 (some .off), derived := upd State.reset.derived 259 .fast }
    let carry := fun (l : Lamp) => withLink s 2 (fun x =>
      { x with acceptances := [⟨0, #v[.off, .off, .off, l, .off, .off, .off, .off]⟩] })
    (after (.lampAcceptance 2) (carry .on)).sent[259] = some .on ∧ (after (.lampAcceptance 2) (carry .on)).dirty[32] = true ∧
    (after (.lampAcceptance 2) (carry .fast)).dirty[32] = false := by decide +kernel

/-- `desk` with an edge handed over by link 0. -/
def handed (press : Bool) (q : KeyPos) : State :=
  withLink desk 0 (fun l => { l with edges := [⟨press, q, true⟩] })

/-- An edge whose session left UP on a LOST reply and is UP again is discarded (R63, R149, R158). -/
theorem test_pressEdge_stale :
    let lost := after (.lost 0) (withLink (handed true 8) 0 (fun l => { l with inFlight := some ⟨.poll false, 1⟩ }))
    let again := after (.imageReply 0 0x220) lost
    again.links[0].session = .up ⟨0x10, 64⟩ .image none ∧ again.links[0].edges = [⟨true, 8, false⟩] ∧
    (after (.pressEdge 8) again).held = again.held ∧ (after (.pressEdge 8) again).links[0].edges = [] := by decide +kernel

/-- An edge accepted in SYNCING, from a POLL in flight at DESK RESET, is not live (R149). -/
theorem test_edge_in_syncing :
    let s := withLink (sent (.poll false)) 0 (fun l => { l with session := .syncing .reset ⟨0x10, 64⟩ .poll })
    (after (.edge 0 true true 8) s).links[0].edges = [⟨true, 8, false⟩] ∧
    (after (.edge 0 true true 8) s).links[0].inFlight = some ⟨.image, 1⟩ := by decide +kernel

/-- The selected key of a STRICT group pressed again: a record, no notice (R103); the first press of a REPEATING key's
neighbour opens it with PRESS (R66); a TOGGLE press turns the latch over to OFF, extra 0 (R67, R95). -/
theorem test_pressEdge :
    ((after (.pressEdge 6) (handed true 6)).held.map (fun r => (r.pos, r.openedTo))) =
      [(5, some ⟨1, 7⟩), (9, some ⟨1, 7⟩), (6, none)] ∧ (after (.pressEdge 6) (handed true 6)).queues[1] = [] ∧
    (((after (.pressEdge 8) (handed true 8)).queues[1]).map (fun n => n.kind)) = [.press] ∧
    (after (.pressEdge 7) (handed true 7)).table[7].cls = .toggle false ∧
    ((after (.pressEdge 7) (handed true 7)).queues[1]).map (fun n => (n.kind, n.extra)) = [(.toggled, 0)] := by decide +kernel

/-- The release of a held key closes its record (R71). -/
theorem test_releaseEdge :
    let t := after (.releaseEdge 5) (handed false 5)
    (t.held.map (fun r => r.pos)) = [9] ∧ (t.queues[1]).map (fun n => n.kind) = [.release] := by decide +kernel

/-- Example 5.5: the dues at 2,225 and 2,411, where 75 is halved to 37 and 37 to the floor 30. -/
theorem test_repeatDue :
    let s := (withPanel 3 128).setBinding 401 (owned 1 2 .opened (.repeating 3) 0x0451 .dark)
    ((after (.repeatDue 401) { s with held := [recordOf 401 (some ⟨1, 2⟩) true (.repeating 2225 75) 7], deskTime := 2225 }).held.map
      (fun r => (r.phase, r.repeatCount))) = [(.repeating 2300 37, 8)] ∧
    ((after (.repeatDue 401) { s with held := [recordOf 401 (some ⟨1, 2⟩) true (.repeating 2411 37) 11], deskTime := 2411 }).held.map
      (fun r => (r.phase, r.repeatCount))) = [(.repeating 2448 30, 12)] := by decide +kernel

/-- Example 5.4-1 at 5,300: the first due takes its period from the profile as it now stands, 200 ms. -/
theorem test_repeatDue_first :
    let s := (withPanel 0 128).setBinding 12 (owned 2 4 .opened (.repeating 1) 0x0012 .dark)
    let t := after (.repeatDue 12)
      { s with profiles := upd s.profiles 1 ⟨30, 20, 2, 5⟩, held := [recordOf 12 (some ⟨2, 4⟩) true (.delay 5300) 0],
               deskTime := 5300 }
    t.held.map (fun r => (r.phase, r.repeatCount)) = [(.repeating 5500 200, 1)] ∧
    (t.queues[2]).map gist = [(.repeated, 12, 4, 1)] := by decide +kernel

/-- Example 7.3-1 at 9,050 and 9,100: the newest REPEAT renewed, and, a PANEL_DOWN behind it, an OVERRUN for the next.
-/
theorem test_offer :
    let r : Report := { kind := .repeated, resync := false, lost := false, pos := 261, code := 0, gen := 3, extra := 2 }
    let one : Notice := { r with extra := 1, stamp := 9000 }
    let down : Notice := { r with kind := .panelDown, pos := 768, gen := 0, extra := 0, stamp := 9080 }
    offerTo 9050 [one] r = [{ one with extra := 2, stamp := 9050 }] ∧
    (offerTo 9100 (List.replicate 22 one ++ [down]) { r with extra := 3 }).getLast? = some (overrunNotice 9100) ∧
    offerTo 9150 [overrunNotice 9100] { r with extra := 4 } = [{ overrunNotice 9100 with extra := 2 }] := by decide +kernel

/-- The NOTHING message on the wire after 24 bit times of waiting, and after 25 (R143, R144, R193). -/
theorem test_wire :
    let nothing : List Bool := [false, true, true, true, false, false, false, true, false, true, true, true]
    exchangeCommand 2 (.poll true) (List.replicate 24 true ++ nothing) = .nothing 2 ∧
    exchangeCommand 2 (.poll true) (List.replicate 25 true ++ nothing) = .exchangeFailed 2 .noReply ∧
    exchangeCommand 2 .image nothing = .exchangeFailed 2 .wrongReply := by decide +kernel

/-- A panel with one edge reported and not yet acknowledged. -/
def thePanel : Panel :=
  { panelType := 0x10, keyCount := 64, keys := 3, buffer := [⟨true, 0⟩, ⟨true, 1⟩], outstanding := true, lastSent := true,
    lost := false, lamps := Vector.replicate 128 .off }

/-- A POLL with its parity bit wrong acknowledges nothing and is answered AGAIN; whole, it acknowledges the edge; cut
short, it is not answered (R138, R141, R193). The frame of 0x53: K 1 and four data 1s make the parity bit 1; that of A
= 1: one data 1. -/
theorem test_panel_hears :
    let code : List Bool := [false, true, true, true, false, false, true, false, true, false, true, true]
    let data := fun parity => [false, false, true, false, false, false, false, false, false, false, parity, true]
    thePanel.hears (code ++ data false) false = (thePanel, some .again) ∧
    (thePanel.hears (code ++ data true) false).2 = some (.edge false true 1) ∧
    thePanel.hears code true = (thePanel, none) := by decide +kernel

/-- LDAn carries the frame of an IDENTIFY, 0x51, for 12 bit times and is released after it; in the hold it is released
(R137, R138, R153, R193). -/
theorem test_lda :
    (List.range 13).map LinkEngine.initial.lda =
      [some false, some true, some true, some false, some false, some false, some true, some false, some true, some false,
        some false, some true, none] ∧
    LinkEngine.inReset.lda 0 = none := by decide +kernel

/-! ## Witnesses: what the states of the tests meet -/

/-- The entries of the yield table of `desk`. -/
theorem desk_asks (i : AskId) (a : Ask) : desk.asks[i] = some a ↔ i = 0 ∧ a = theAsk := by
  fin_cases i
  · exact ⟨fun h => ⟨rfl, (Option.some.inj h).symm⟩, fun h => congrArg some h.2.symm⟩
  all_goals exact ⟨(fun h => nomatch h), fun h => absurd h.1 (by decide)⟩

theorem desk_held_pos : desk.held.map HeldRecord.pos = [5, 9] := rfl

theorem held_of {s : State} (h : s.held = desk.held) : s.HeldLaw :=
  ⟨by rw [h]; decide +kernel, by rw [h]; decide +kernel⟩

theorem opened_of {s : State} (h : s.held = desk.held) (t : s.table = desk.table) : s.OpenLaw := by
  have key : ∀ r ∈ desk.held, ∀ o ∈ r.openedTo,
      desk.table[r.pos].owner = some o.host ∧ desk.table[r.pos].gen = o.gen := by decide +kernel
  intro r hr
  rw [h] at hr
  rw [t]
  exact key r hr

theorem form_of {s : State} (h : s.held = desk.held) : ∀ r ∈ s.held, HeldForm r := by
  intro r hr
  rw [h] at hr
  have : r = heldKey ∨ r = { heldKey with pos := 9, phase := .delay 600 } := by simpa [desk, working, withLink] using hr
  rcases this with rfl | rfl
  · exact ⟨by decide, by decide, by simp [heldKey, Phase.period], by decide⟩
  · exact ⟨by decide, by decide, by simp [Phase.period], by decide⟩

theorem yield_of {s : State} (h : s.asks = desk.asks) (t : s.table = desk.table) (p : s.presence[1] = .present)
    (w : WorkingOn s 2 (.yieldAsk 5 momentarySet)) : s.YieldLaw := by
  have key : ∀ (i : AskId) (a : Ask), a ∈ s.asks[i] → i = 0 ∧ a = theAsk := by
    intro i a ha
    rw [h] at ha
    exact (desk_asks i a).mp ha
  refine ⟨?_, ?_, ?_, ?_, ?_⟩
  · intro i a ha
    obtain ⟨-, rfl⟩ := key i a ha
    rw [t]
    exact ⟨rfl, rfl⟩
  · intro i a ha
    obtain ⟨-, rfl⟩ := key i a ha
    exact ⟨by decide, p⟩
  · intro i a ha
    obtain ⟨-, rfl⟩ := key i a ha
    exact ⟨momentarySet, rfl, w⟩
  · intro i j a ha b hb hij
    exact absurd ((key i a ha).1.trans (key j b hb).1.symm) hij
  · intro i a ha g hg
    obtain ⟨-, rfl⟩ := key i a ha
    simp [theAsk, KeyClass.group?] at hg

/-- `desk` with a port other than the asker's WORKING obeys the law of the yield table. -/
theorem yield_working (p : Port) (r : Request) (h : p ≠ 2) : (working desk p r).YieldLaw := by
  refine yield_of rfl rfl rfl ?_
  show (upd desk.ports p _)[(2 : Port)].state = _
  rw [upd_ne _ _ _ _ h]
  rfl

theorem desk_yield : desk.YieldLaw := yield_of rfl rfl rfl rfl

/-- The asks of a port WORKING over `desk`. -/
theorem working_asks (p : Port) (r : Request) (i : AskId) (a : Ask) :
    (working desk p r).asks[i] = some a ↔ i = 0 ∧ a = theAsk :=
  desk_asks i a

/-! ## Witnesses: the machine -/

theorem witness_FrontCommandRuns :
    (({ desk with pending := [.deskTick, .poll 0] } : State).pending = .deskTick :: [.poll 0]) ∧ desk.pending = [] :=
  ⟨rfl, rfl⟩

/-- The state after reset with one tick waiting obeys every law, and its step answers. -/
theorem witness_StepKeepsLaws :
    ∃ s t : State, s.Law ∧ step s = .next t := by
  refine ⟨{ State.reset with pending := [.deskTick] }, _, ?_, rfl⟩
  have hm : ∀ g : GroupId, ({ State.reset with pending := [.deskTick] } : State).members g = 0 := by
    intro g
    simp [State.members, State.reset, Binding.unbound]
  refine ⟨?_, ?_, ?_, ?_, ?_, ?_, ?_, ?_, ⟨?_, ?_, ?_, ?_⟩, ⟨?_, ?_, ?_, ?_, ?_⟩, ⟨?_, ?_⟩, ?_, ⟨?_, ?_, ?_⟩, ?_, ?_⟩
  · intro p
    fin_cases p <;> exact ⟨by decide, by decide, by decide, by decide⟩
  · intro p
    fin_cases p <;> rfl
  · exact ⟨by decide, by decide⟩
  · intro r hr
    exact absurd hr (by simp [State.reset])
  · intro r hr
    exact absurd hr (by simp [State.reset])
  · intro r hr
    exact absurd hr (by simp [State.reset])
  · intro q
    simp only [State.reset, Fin.getElem_fin, Vector.getElem_replicate]
    exact ⟨fun _ => rfl, fun h => nomatch h⟩
  · intro i
    fin_cases i <;> exact ⟨by decide, by decide, by decide, by decide⟩
  · intro g
    rw [hm g]
    simp [State.reset]
  · intro g
    rw [hm g]
    omega
  · intro g x hx
    simp [State.reset] at hx
  · intro q g hg
    simp [State.reset, Binding.unbound, KeyClass.group?] at hg
  · intro i a ha
    simp [State.reset] at ha
  · intro i a ha
    simp [State.reset] at ha
  · intro i a ha
    simp [State.reset] at ha
  · intro i j a ha
    simp [State.reset] at ha
  · intro i a ha
    simp [State.reset] at ha
  · intro q
    simp [State.reset, State.lampFor, Binding.unbound]
  · intro b
    simp [State.reset, dirtyFlag]
  · intro n
    fin_cases n <;>
      exact ⟨by decide, by decide, by decide, by decide, by decide, by decide, by decide, by decide, by decide, by decide,
        by decide⟩
  · intro _ n
    fin_cases n <;> decide
  · intro n e he
    fin_cases n <;> exact nomatch he
  · intro n h
    fin_cases n <;> exact nomatch h
  · intro p
    fin_cases p <;>
      exact ⟨(fun t ht => nomatch ht), by decide, by decide, by decide, (fun r hr => nomatch hr)⟩
  · exact fun h => nomatch h

/-- A full queue, its OVERRUN the newest of 24 entries. -/
def full : List Notice :=
  List.replicate 23 { kind := .press, resync := false, lost := false, pos := 5, code := 0, gen := 7, extra := 0, stamp := 0 }
    ++ [overrunNotice 9]

theorem witness_StepKeepsQueues :
    ∃ s t : State, (∀ p : Port, QueueLaw s.queues[p]) ∧ s.queues[0] = full ∧ step s = .next t := by
  refine ⟨{ desk with queues := upd desk.queues 0 full, pending := [.hostLapse 0] }, _, ?_, by decide +kernel, rfl⟩
  intro p
  fin_cases p <;>
    exact ⟨by decide +kernel, by decide +kernel, by decide +kernel, by decide +kernel⟩

theorem witness_StepKeepsHeldSet :
    ∃ s t : State, s.HeldLaw ∧ s.OpenLaw ∧ s.held.length = 2 ∧ step s = .next t :=
  ⟨{ desk with pending := [.pressEdge 6] }, _, held_of rfl, opened_of rfl rfl, rfl, rfl⟩

theorem witness_StepKeepsHeldPanels :
    ∃ s t : State, s.HeldPanelLaw ∧ s.held.length = 2 ∧ step s = .next t := by
  refine ⟨{ desk with pending := [.exchangeFailed 0 .noReply] }, _, ?_, rfl, rfl⟩
  have : ∀ r ∈ desk.held, desk.links[panelOf r.pos].session.isSession = true := by decide +kernel
  exact this

theorem witness_StepKeepsNoteLines :
    ∃ s t : State, s.NoteLaw ∧ s.noteLow[1] = true ∧ step s = .next t := by
  refine ⟨{ noted with pending := [.noticeRemoval 1] }, _, ?_, by decide +kernel, rfl⟩
  have : ∀ p : Port, noted.noteLow[p] = lineDrive noted.ports[p].lineMode noted.queues[p] := by decide +kernel
  exact this

theorem witness_StepKeepsBindings :
    ∃ s t : State, (∀ q : KeyPos, BindingLaw s.table[q]) ∧ s.table[7].hold = .fixed ∧ step s = .next t := by
  refine ⟨{ State.reset.setBinding 7 { hostsKey with hold := .fixed } with pending := [.powerOn] }, _, ?_,
    by decide +kernel, rfl⟩
  intro q
  by_cases h : (7 : KeyPos) = q
  · subst h
    exact ⟨(fun h => nomatch h), fun _ => ⟨rfl, rfl⟩⟩
  · have e : ({ State.reset.setBinding 7 { hostsKey with hold := .fixed } with pending := [.powerOn] } : State).table[q]
        = Binding.unbound 0 := by
      show (upd State.reset.table 7 _)[q] = _
      rw [upd_ne _ _ _ _ h]
      simp [State.reset]
    rw [e]
    exact ⟨fun _ => rfl, fun h => nomatch h⟩

theorem witness_StepKeepsLinks :
    ∃ s t : State, (∀ n : LinkId, LinkLaw n s.links[n]) ∧ s.links[0].session.isSession = true ∧ step s = .next t := by
  refine ⟨{ desk with pending := [.poll 0] }, _, ?_, rfl, rfl⟩
  intro n
  fin_cases n <;>
    exact ⟨by decide, by decide, by decide, by decide, by decide, by decide, by decide, by decide, by decide, by decide,
      by decide⟩

theorem witness_GenerationFollowsOwner :
    ∃ s t : State, s.YieldLaw ∧ (Instr.release 1 ≠ .powerOn) ∧ exec (.release 1) s = .next t ∧
      t.table[5].gen ≠ s.table[5].gen :=
  ⟨working desk 1 (.release 5 1), _, yield_working 1 _ (by decide), by decide, rfl, by decide +kernel⟩

theorem witness_AnswerStands :
    ∃ s t : State, s.ports[1].state = .answered ⟨.ok, 0x17, []⟩ ∧ exec (.submit 1 [0x17]) s = .next t :=
  ⟨inTxn (desk.setPort 1 { desk.ports[1] with state := .answered ⟨.ok, 0x17, []⟩ }) 1 .unread, _, rfl, rfl⟩

/-- `desk` held in power-on reset. -/
def holding : State := desk.holdReset

/-- The hold obeys its law; the desk in use is outside it. -/
theorem witness_PowerOnValues :
    holding.resetLow = true ∧ holding.HoldLaw ∧ desk.resetLow = false ∧ (Instr.chipSelectFall 1 ≠ .powerOn) :=
  ⟨rfl, fun _ => (State.holdReset_idem desk).symm, rfl, by decide⟩

theorem witness_DeskTimeMovesByTick :
    (({ desk with deskTime := 65535 } : State).resetLow = false) ∧ holding.resetLow = true ∧
    ∃ t, exec (.poll 0) desk = .next t :=
  ⟨rfl, rfl, ⟨_, rfl⟩⟩

/-! ## Witnesses: host ports -/

theorem witness_ChipSelectBoundsTransactions :
    (desk.ports[1].csLow = false ∧ desk.resetLow = false) ∧ (holding.ports[1].csLow = false ∧ holding.resetLow = true) ∧
    (inTxn desk 1 .status).ports[1].csLow = true ∧
    (∃ x, (inTxn desk 1 .status).ports[1].txn = some x ∧ x.reading ≠ .unread) ∧
    (∃ x, (inTxn desk 1 .unread).ports[1].txn = some x ∧ x.reading = .unread) ∧ desk.ports[1].txn = none :=
  ⟨⟨rfl, rfl⟩, ⟨rfl, rfl⟩, rfl, ⟨_, rfl, by decide⟩, ⟨_, rfl, rfl⟩, rfl⟩

theorem witness_StatusShowsThePort :
    (desk.ports[1].state = .idle ∧ desk.ports[2].state = .working (.yieldAsk 5 momentarySet)) ∧
    (∃ x, (inTxn desk 1 .unread).ports[1].txn = some x ∧ x.reading = .unread) ∧
    (0x00#8 ∉ [0xA5#8, 0x5A#8, 0x3C#8, 0xC3#8]) ∧
    (∃ x, (inTxn desk 1 .status).ports[1].txn = some x ∧ x.reading = .status) :=
  ⟨⟨rfl, rfl⟩, ⟨_, rfl, rfl⟩, by decide, ⟨_, rfl, rfl⟩⟩

/-- Each port state, an answer with two bytes left, a reading past its end, and an answer with its last byte left. -/
theorem witness_FetchClocksTheAnswer :
    (∃ x, (inTxn desk 1 .unread).ports[1].txn = some x ∧ x.reading = .unread ∧ desk.ports[1].state = .idle) ∧
    (∃ x, (inTxn desk 2 .unread).ports[2].txn = some x ∧ x.reading = .unread) ∧
    (∃ x, (inTxn desk 1 (.fetch [0x72, 0] true)).ports[1].txn = some x ∧ x.reading = .fetch [0x72, 0] true) ∧
    (∃ x, (inTxn desk 1 (.fetch [0] false)).ports[1].txn = some x ∧ x.reading = .fetch [0] false) ∧
    (∃ x, (inTxn desk 1 (.fetch [] false)).ports[1].txn = some x ∧ x.reading = .fetch [] false) ∧
    (∃ x, (inTxn desk 1 (.fetch [0] true)).ports[1].txn = some x ∧ x.reading = .fetch [0] true) :=
  ⟨⟨_, rfl, rfl, rfl⟩, ⟨_, rfl, rfl⟩, ⟨_, rfl, rfl⟩, ⟨_, rfl, rfl⟩, ⟨_, rfl, rfl⟩, ⟨_, rfl, rfl⟩⟩

/-- The first byte and the ninth of a head entry, and a read-out whose counted entries are done. -/
theorem witness_NoticesReadOut :
    (∃ x, (inTxn noted 1 .unread).ports[1].txn = some x ∧ x.reading = .unread) ∧
    (∃ x, (inTxn noted 1 (.notices false 0)).ports[1].txn = some x ∧ x.reading = .notices false 0) ∧
    (∃ x n rest, (inTxn noted 1 (.notices true 8)).ports[1].txn = some x ∧ x.reading = .notices true 8 ∧ 0 < x.left ∧
      noted.queues[1] = n :: rest) ∧
    (∃ x m n rest, (inTxn noted 1 (.notices true 9)).ports[1].txn = some x ∧ x.reading = .notices true 9 ∧
      x.left = m + 1 ∧ noted.queues[1] = n :: rest) ∧
    (∃ x, (inTxn desk 1 (.notices true 0)).ports[1].txn = some x ∧ x.reading = .notices true 0 ∧ x.left = 0) := by
  refine ⟨⟨_, rfl, rfl⟩, ⟨_, rfl, rfl⟩, ⟨_, _, _, rfl, rfl, ?_, rfl⟩, ⟨_, 1, _, _, rfl, rfl, ?_, rfl⟩, ⟨_, rfl, rfl, ?_⟩⟩ <;>
    decide +kernel

/-- An asker with its ask pending, and a port that is IDLE. -/
theorem witness_CancelEndsTheOwnAsk :
    (∃ x, (inTxn desk 2 .unread).ports[2].txn = some x ∧ x.reading = .unread) ∧
    WorkingOn (inTxn desk 2 .unread) 2 (.yieldAsk 5 momentarySet) ∧ (inTxn desk 2 .unread).asks[0] = some theAsk ∧
    theAsk.asker = 2 ∧ (∀ (j : AskId) b, (inTxn desk 2 .unread).asks[j] = some b → b.asker = 2 → j = 0) ∧
    (∃ x, (inTxn desk 1 .unread).ports[1].txn = some x ∧ x.reading = .unread) ∧
    (∀ w raw, ¬ WorkingOn (inTxn desk 1 .unread) 1 (.yieldAsk w raw)) :=
  ⟨⟨_, rfl, rfl⟩, rfl, rfl, rfl, fun j b h _ => ((desk_asks j b).mp h).1, ⟨_, rfl, rfl⟩, fun _ _ h => nomatch h⟩

theorem witness_SubmitTakesEveryRequest :
    ∃ x, (inTxn desk 0 .unread).ports[0].txn = some x ∧ x.reading = .unread ∧
      (inTxn desk 0 .unread).ports[0].state = .idle ∧ (Request.deskReset.supervisorOnly = true → (0 : Port) = 0) :=
  ⟨_, rfl, rfl, rfl, fun _ => rfl⟩

/-- An IDLE port, a code of no request, nine operand bytes of ten, a supervisor's request on port 1, a WORKING port. -/
theorem witness_SubmitRefusedAtThePort :
    (∃ x, (inTxn desk 1 .unread).ports[1].txn = some x ∧ x.reading = .unread ∧ desk.ports[1].state = .idle) ∧
    (∀ r : Request, r.code ≠ 0x19) ∧
    ([0, 5, 1, 0, 0, 0, 0, 0, 0].length < (Request.claim 5 1 momentarySet).operands.length) ∧
    (Request.deskReset.operands.length ≤ ([] : List Byte).length ∧ Request.deskReset.supervisorOnly = true ∧
      (1 : Port) ≠ 0) ∧
    (∃ x, (inTxn desk 2 .unread).ports[2].txn = some x ∧ x.reading = .unread ∧ desk.ports[2].state ≠ .idle) := by
  refine ⟨⟨_, rfl, rfl, rfl⟩, ?_, by decide, by decide, ⟨_, rfl, rfl, fun h => nomatch h⟩⟩
  intro r
  cases r <;> simp [Request.code]

/-- The timer exactly run out, and an ask that the host holds. -/
theorem witness_HostLapseGrantsItsAsks :
    let s := desk.setPort 1 { desk.ports[1] with lapseTime := 1, lapseStart := some 64636 }
    s.YieldLaw ∧ s.ports[1].lapseStart = some 64636 ∧ s.ports[1].lapseTime ≠ 0 ∧
    1000 * s.ports[1].lapseTime.toNat = (s.deskTime - 64636).toNat ∧ s.asks[0] = some theAsk ∧ theAsk.holder = 1 :=
  ⟨yield_of rfl rfl rfl rfl, rfl, by decide +kernel, by decide +kernel, rfl, rfl⟩

/-- The host of port 3, which holds no ask, and the ask of host 1 that stands. -/
theorem witness_HostLapseGrantsItsAsks_others :
    let s := desk.setPort 3 { desk.ports[3] with lapseTime := 60, lapseStart := some 101 }
    s.YieldLaw ∧ s.ports[3].lapseStart = some 101 ∧ s.ports[3].lapseTime ≠ 0 ∧
    1000 * s.ports[3].lapseTime.toNat ≤ (s.deskTime - 101).toNat ∧ s.asks[0] = some theAsk ∧ theAsk.holder ≠ 3 :=
  ⟨yield_of rfl rfl rfl rfl, rfl, by decide +kernel, by decide +kernel, rfl, by decide⟩

theorem witness_SetPortWritesSettings :
    WorkingOn (working desk 1 (.setPort 3 0)) 1 (.setPort 3 0) ∧ 2 < (3 : Byte).toNat ∧
    WorkingOn (working desk 1 (.setPort 2 61)) 1 (.setPort 2 61) ∧ 60 < (61 : Byte).toNat ∧
    WorkingOn (working desk 1 (.setPort 2 60)) 1 (.setPort 2 60) ∧
    [LineMode.off, .urgent, .any][(2 : Byte).toNat]? = some .any ∧ (60 : Byte).toNat ≤ 60 :=
  ⟨working_on .., by decide, working_on .., by decide, working_on .., rfl, by decide⟩

/-- A REPEAT about key 9. -/
def repeatNine : Report :=
  { kind := .repeated, resync := false, lost := false, pos := 9, code := 0, gen := 7, extra := 4 }

/-- A queue with an OVERRUN, one whose newest entry is renewed, one of 23 entries, one of 22. -/
theorem witness_OffersTakeTheFirstCase :
    (∃ n ∈ full, n.kind = .overrun) ∧
    ((∀ n ∈ [({ repeatNine with stamp := 3 } : Notice)], n.kind ≠ .overrun) ∧ repeatNine.kind = .repeated) ∧
    ((∀ n ∈ full.dropLast, n.kind ≠ .overrun) ∧ full.dropLast.length = 23 ∧
      ∀ n ∈ full.dropLast.getLast?, ¬ (repeatNine.kind = .repeated ∧ n.kind = .repeated ∧ n.pos = repeatNine.pos ∧
        n.gen = repeatNine.gen)) ∧
    ((∀ n ∈ full.take 22, n.kind ≠ .overrun) ∧ (full.take 22).length < 23 ∧
      ∀ n ∈ (full.take 22).getLast?, ¬ (repeatNine.kind = .repeated ∧ n.kind = .repeated ∧ n.pos = repeatNine.pos ∧
        n.gen = repeatNine.gen)) := by
  decide +kernel

/-! ## Witnesses: the binding controller -/

/-- A first position of 1024, a count of 0, a count of 129, and a range over the end of panel 0; the last position. -/
theorem witness_RangeCheck :
    rangeOf 1024 1 = none ∧ rangeOf 0 0 = none ∧ rangeOf 0 129 = none ∧ rangeOf 127 2 = none ∧
    rangeOf 1023 1 = some [1023] ∧ WorkingOn (working desk 1 (.release 127 2)) 1 (.release 127 2) ∧
    WorkingOn (working desk 0 (.fix 1024 1)) 0 (.fix 1024 1) :=
  ⟨by decide, by decide, by decide, by decide, by decide +kernel, working_on .., working_on ..⟩

theorem witness_AttributeValidation :
    (⟨5, 0, 0, 0, 0, 0⟩ : RawAttrs).validate = none ∧ (⟨2, 0, 8, 0, 0, 0⟩ : RawAttrs).validate = none ∧
    (⟨0, 0, 0, 0, 3, 0⟩ : RawAttrs).validate = none ∧
    (⟨2, 9, 7, 32, 2, 3⟩ : RawAttrs).validate = some ⟨.repeating 7, 9, .held, .fast⟩ ∧
    (⟨4, 9, 8, 31, 4, 0⟩ : RawAttrs).validate = some ⟨.select 31, 9, .selected, .off⟩ := by decide

/-- Key 4 is unowned and key 7 FIXED; a range from key 5 passes keys 5 and 6; key 6 is SELECT and key 8 alone has lamp
mode HOST. -/
theorem witness_RangeRefusals :
    rangeOf 5 3 = some ([5, 6] ++ 7 :: []) ∧
    (∀ x ∈ [(5 : KeyPos), 6], desk.table[x].owner = some 1 ∧ desk.table[x].hold ≠ .fixed) ∧
    (desk.table[(7 : KeyPos)].owner = some 1 ∧ desk.table[(7 : KeyPos)].hold = .fixed) ∧
    rangeOf 4 1 = some ([] ++ 4 :: []) ∧ desk.table[(4 : KeyPos)].owner ≠ some 1 ∧
    desk.table[(4 : KeyPos)].owner = none ∧
    rangeOf 5 2 = some ([5] ++ 6 :: []) ∧
    (∀ x ∈ [(5 : KeyPos)], desk.table[x].owner ≠ none) ∧ desk.table[(6 : KeyPos)].owner ≠ none ∧
    desk.table[(6 : KeyPos)].cls = .select 3 ∧
    rangeOf 8 2 = some ([8] ++ 9 :: []) ∧ desk.table[(8 : KeyPos)].lampMode = .host ∧
    desk.table[(9 : KeyPos)].lampMode ≠ .host ∧ 3 < (4 : Byte).toNat ∧ (3 : Byte).toNat ≤ 3 ∧
    WorkingOn (working desk 1 (.lamp 8 2 3)) 1 (.lamp 8 2 3) ∧ WorkingOn (working desk 1 (.pin 5 3)) 1 (.pin 5 3) := by
  refine ⟨?_, ?_, ?_, ?_, ?_, ?_, ?_, ?_, ?_, ?_, ?_, ?_, ?_, ?_, ?_, working_on .., working_on ..⟩ <;> decide +kernel

/-- The binding of a key of `desk` that names a group is that of key 6, and the group is group 3. -/
theorem desk_select (q : KeyPos) (g : GroupId) : desk.table[q].cls = .select g ↔ q = 6 ∧ g = 3 := by
  by_cases h9 : q = 9
  · subst h9; revert g; decide +kernel
  by_cases h8 : q = 8
  · subst h8; revert g; decide +kernel
  by_cases h7 : q = 7
  · subst h7; revert g; decide +kernel
  by_cases h6 : q = 6
  · subst h6; revert g; decide +kernel
  by_cases h5 : q = 5
  · subst h5; revert g; decide +kernel
  have e : desk.table[q] = Binding.unbound 0 := by
    show (upd (upd (upd (upd (upd State.reset.table 5 _) 6 _) 7 _) 8 _) 9 _)[q] = _
    rw [upd_ne _ _ _ _ (Ne.symm h9), upd_ne _ _ _ _ (Ne.symm h8), upd_ne _ _ _ _ (Ne.symm h7),
      upd_ne _ _ _ _ (Ne.symm h6), upd_ne _ _ _ _ (Ne.symm h5)]
    simp [State.reset]
  rw [e]
  simp [Binding.unbound, h6]

/-- Group 3 of `desk` has key 6 for its one member; every other group is FREE. -/
theorem desk_group (g : GroupId) : desk.groups[g] = if g = 3 then some theGroup else none := by
  revert g
  decide +kernel

theorem desk_members (g : GroupId) : desk.members g = if g = 3 then 1 else 0 := by
  have one : ((List.finRange 1024).filter (fun q => decide (q = (6 : KeyPos)))).length = 1 := by decide +kernel
  simp only [State.members, desk_select]
  by_cases h : g = 3
  · simpa [h] using one
  · simp [h]

theorem group_of {s : State} (t : s.table = desk.table) (h : s.groups = desk.groups) : s.GroupLaw := by
  have m : ∀ g : GroupId, s.members g = if g = 3 then 1 else 0 := by
    intro g
    rw [← desk_members g]
    simp only [State.members, t]
  refine ⟨?_, ?_, ?_, ?_⟩
  · intro g
    rw [m g, h, desk_group g]
    split_ifs <;> rfl
  · intro g
    rw [m g]
    split_ifs <;> decide
  · intro g x hx q hq
    rw [h, desk_group g] at hx
    rw [t]
    split_ifs at hx with e
    · obtain rfl : theGroup = x := by simpa using hx
      obtain rfl : (6 : KeyPos) = q := by simpa [theGroup] using hq
      exact ⟨(desk_select 6 g).mpr ⟨rfl, e⟩, rfl⟩
    · exact nomatch hx
  · intro q g hg
    rw [t] at hg
    have hc : desk.table[q].cls = .select g := by
      revert hg
      cases desk.table[q].cls <;> simp [KeyClass.group?]
    obtain ⟨rfl, rfl⟩ := (desk_select q g).mp hc
    rw [h, t]
    exact ⟨theGroup, rfl, rfl⟩

/-- A range of an unowned key and an own one without a group; and an own key joining group 3, whose count is then 2. -/
theorem witness_ClaimTakesTheRange :
    (WorkingOn (working desk 1 (.claim 4 2 momentarySet)) 1 (.claim 4 2 momentarySet) ∧
      rangeOf 4 2 = some [4, 5] ∧ momentarySet.validate = some ⟨.momentary, 0x1234, .held, .on⟩ ∧
      (∀ q ∈ [(4 : KeyPos), 5],
        desk.table[q].owner = none ∨ (desk.table[q].owner = some 1 ∧ desk.table[q].hold ≠ .fixed))) ∧
    (WorkingOn (working desk 1 (.claim 5 2 (selectSet 3))) 1 (.claim 5 2 (selectSet 3)) ∧
      rangeOf 5 2 = some [5, 6] ∧ (selectSet 3).validate = some ⟨.select 3, 0x1234, .selected, .off⟩ ∧
      (∀ q ∈ [(5 : KeyPos), 6],
        desk.table[q].owner = none ∨ (desk.table[q].owner = some 1 ∧ desk.table[q].hold ≠ .fixed)) ∧
      (∃ x, desk.groups[(3 : GroupId)] = some x ∧ x.owner = 1 ∧
        x.count + ([(5 : KeyPos), 6].filter (fun q =>
          !(decide (desk.table[q].owner = some 1) && decide (desk.table[q].cls = .select 3)))).length ≤ 128) ∧
      (working desk 1 (.claim 5 2 (selectSet 3))).GroupLaw) := by
  refine ⟨⟨working_on .., ?_, ?_, ?_⟩, working_on .., ?_, ?_, ?_, ⟨theGroup, ?_, ?_, ?_⟩, group_of rfl rfl⟩ <;>
    decide +kernel

/-- The selected key 6 leaves its group for a set without one. -/
theorem witness_ClaimTakesTheRange_leaves :
    WorkingOn (working desk 1 (.claim 6 1 momentarySet)) 1 (.claim 6 1 momentarySet) ∧ rangeOf 6 1 = some [6] ∧
    desk.table[(6 : KeyPos)].owner = some 1 ∧ desk.table[(6 : KeyPos)].hold ≠ .fixed ∧
    desk.table[(6 : KeyPos)].cls.group? = some 3 ∧ desk.groups[(3 : GroupId)] = some theGroup ∧
    theGroup.selected = some 6 ∧ (working desk 1 (.claim 6 1 momentarySet)).GroupLaw := by
  refine ⟨working_on .., ?_, ?_, ?_, ?_, rfl, rfl, group_of rfl rfl⟩ <;> decide +kernel

/-- `desk` whose group 3 is full. -/
def fullGroup : State := desk.setGroup 3 (some { theGroup with count := 128 })

/-- A bad set; a FREE group and another host's; an owned, a FIXED key; a full group. -/
theorem witness_ClaimRefusals :
    rangeOf 5 1 = some ([] ++ 5 :: []) ∧ (⟨5, 0, 0, 0, 0, 0⟩ : RawAttrs).validate = none ∧
    ((selectSet 4).validate = some ⟨.select 4, 0x1234, .selected, .off⟩ ∧ desk.groups[(4 : GroupId)] = none) ∧
    ((selectSet 3).validate = some ⟨.select 3, 0x1234, .selected, .off⟩ ∧
      desk.groups[(3 : GroupId)] = some theGroup ∧ theGroup.owner ≠ 2) ∧
    (rangeOf 4 2 = some ([4] ++ 5 :: []) ∧ desk.table[(4 : KeyPos)].owner = none ∧
      desk.table[(5 : KeyPos)].owner = some 1) ∧
    (rangeOf 7 1 = some ([] ++ 7 :: []) ∧ desk.table[(7 : KeyPos)].hold = .fixed) ∧
    (fullGroup.groups[(3 : GroupId)] = some { theGroup with count := 128 } ∧ 128 < 128 + 0 + 1 ∧
      fullGroup.table[(5 : KeyPos)].owner = some 1 ∧ fullGroup.table[(5 : KeyPos)].hold ≠ .fixed ∧
      fullGroup.table[(5 : KeyPos)].cls ≠ .select 3) ∧
    WorkingOn (working fullGroup 1 (.claim 5 1 (selectSet 3))) 1 (.claim 5 1 (selectSet 3)) := by
  refine ⟨?_, ?_, ⟨?_, ?_⟩, ⟨?_, ?_, ?_⟩, ⟨?_, ?_, ?_⟩, ⟨?_, ?_⟩, ⟨?_, ?_, ?_, ?_, ?_⟩, working_on ..⟩ <;> decide +kernel

/-- The range of keys 5 and 6, the first with an ask; and key 6 alone, without one. -/
theorem witness_ReleaseUnbindsTheRange :
    (WorkingOn (working desk 1 (.release 5 2)) 1 (.release 5 2) ∧ rangeOf 5 2 = some [5, 6] ∧
      (working desk 1 (.release 5 2)).YieldLaw ∧ (working desk 1 (.release 5 2)).HeldLaw ∧
      (working desk 1 (.release 5 2)).OpenLaw ∧ (∀ r ∈ (working desk 1 (.release 5 2)).held, HeldForm r) ∧
      (∀ q ∈ [(5 : KeyPos), 6], desk.table[q].owner = some 1 ∧ desk.table[q].hold ≠ .fixed)) ∧
    (rangeOf 6 1 = some [6] ∧ (working desk 1 (.release 6 1)).YieldLaw ∧
      ∀ (i : AskId) (a : Ask), (working desk 1 (.release 6 1)).asks[i] = some a → a.pos ≠ 6) ∧
    (working desk 1 (.release 5 2)).GroupLaw := by
  refine ⟨⟨working_on .., by decide +kernel, yield_working 1 _ (by decide), held_of rfl, opened_of rfl rfl, form_of rfl,
    by decide +kernel⟩, ⟨by decide +kernel, yield_working 1 _ (by decide), ?_⟩, group_of rfl rfl⟩
  intro i a h
  obtain ⟨-, rfl⟩ := (working_asks ..).mp h
  decide

/-- Keys 5 and 6 for PIN and UNPIN, the ask on key 5; keys 7 and 8 for FIX; an ask off the range of FIX. -/
theorem witness_HoldRequests :
    rangeOf 5 2 = some [5, 6] ∧ (working desk 1 (.pin 5 2)).YieldLaw ∧
    (∀ q ∈ [(5 : KeyPos), 6], desk.table[q].owner = some 1 ∧ desk.table[q].hold ≠ .fixed) ∧
    WorkingOn (working desk 1 (.pin 5 2)) 1 (.pin 5 2) ∧ WorkingOn (working desk 1 (.unpin 5 2)) 1 (.unpin 5 2) ∧
    rangeOf 7 2 = some [7, 8] ∧ (working desk 0 (.fix 7 2)).YieldLaw ∧
    (∀ q ∈ [(7 : KeyPos), 8], desk.table[q].owner ≠ none ∧ ∀ g, desk.table[q].cls ≠ .select g) ∧
    WorkingOn (working desk 0 (.fix 7 2)) 0 (.fix 7 2) ∧ theAsk.pos ∉ [(7 : KeyPos), 8] := by
  refine ⟨by decide +kernel, yield_working 1 _ (by decide), by decide +kernel, working_on .., working_on ..,
    by decide +kernel, yield_working 0 _ (by decide), ?_, working_on .., by decide⟩
  decide +kernel

theorem witness_LampWritesTheRange :
    WorkingOn (working desk 1 (.lamp 8 1 3)) 1 (.lamp 8 1 3) ∧ rangeOf 8 1 = some [8] ∧
    [Lamp.off, .on, .slow, .fast][(3 : Byte).toNat]? = some .fast ∧
    (∀ q ∈ [(8 : KeyPos)], desk.table[q].owner = some 1 ∧ desk.table[q].lampMode = .host) :=
  ⟨working_on .., by decide +kernel, rfl, by decide +kernel⟩

theorem witness_ClearTableUnbindsAll :
    let s := working desk 0 .clearTable
    WorkingOn s 0 .clearTable ∧ s.YieldLaw ∧ s.HeldLaw ∧ s.OpenLaw ∧ (∀ r ∈ s.held, HeldForm r) :=
  ⟨working_on .., yield_working 0 _ (by decide), held_of rfl, opened_of rfl rfl, form_of rfl⟩

/-- Host 1, which holds the ask, and host 3, which holds none. -/
theorem witness_LeaveReleasesSilently :
    (let s := working desk 1 .leave
     WorkingOn s 1 .leave ∧ s.YieldLaw ∧ s.HeldLaw ∧ s.OpenLaw ∧ (∀ r ∈ s.held, HeldForm r)) ∧
    (WorkingOn (working desk 3 .leave) 3 .leave ∧ (working desk 3 .leave).YieldLaw ∧ theAsk.holder ≠ 3) :=
  ⟨⟨working_on .., yield_working 1 _ (by decide), held_of rfl, opened_of rfl rfl, form_of rfl⟩,
    working_on .., yield_working 3 _ (by decide), by decide⟩

theorem witness_ReadsChangeNothing :
    (WorkingOn (working desk 1 (.readBinding 1024)) 1 (.readBinding 1024) ∧ 1023 < (1024 : Half).toNat) ∧
    (WorkingOn (working desk 1 (.readBinding 1023)) 1 (.readBinding 1023) ∧ (1023 : Half).toNat = (1023 : KeyPos).1) ∧
    WorkingOn (working desk 1 .readHeld) 1 .readHeld ∧
    (WorkingOn (working desk 1 (.readPanel 8)) 1 (.readPanel 8) ∧ 7 < (8 : Byte).toNat) ∧
    (WorkingOn (working desk 1 (.readPanel 7)) 1 (.readPanel 7) ∧ (7 : Byte).toNat = (7 : LinkId).1) ∧
    WorkingOn (working desk 1 .readDesk) 1 .readDesk :=
  ⟨⟨working_on .., by decide⟩, ⟨working_on .., by decide⟩, working_on .., ⟨working_on .., by decide⟩,
    ⟨working_on .., by decide⟩, working_on ..⟩

/-! ## Witnesses: the yield unit -/

/-- Host 3 asks: each refusal has a key, a set or a group that brings it about. -/
theorem witness_YieldAskRefusals :
    WorkingOn (working desk 3 (.yieldAsk 1024 momentarySet)) 3 (.yieldAsk 1024 momentarySet) ∧
    (∀ (i : AskId) (a : Ask), (working desk 3 (.yieldAsk 1024 momentarySet)).asks[i] = some a → a.asker ≠ 3) ∧
    1023 < (1024 : Half).toNat ∧ (⟨5, 0, 0, 0, 0, 0⟩ : RawAttrs).validate = none ∧
    ((selectSet 4).validate = some ⟨.select 4, 0x1234, .selected, .off⟩ ∧ desk.groups[(4 : GroupId)] = none) ∧
    ((selectSet 3).validate = some ⟨.select 3, 0x1234, .selected, .off⟩ ∧
      desk.groups[(3 : GroupId)] = some theGroup ∧ theGroup.owner ≠ 3) ∧
    (momentarySet.validate = some ⟨.momentary, 0x1234, .held, .on⟩ ∧ desk.table[(8 : KeyPos)].owner = some 1) ∧
    desk.table[(7 : KeyPos)].hold = .fixed ∧
    (working (desk.setHold .pinned 8) 3 (.yieldAsk 8 momentarySet)).table[(8 : KeyPos)].hold = .pinned ∧
    (desk.table[(5 : KeyPos)].hold = .opened ∧ desk.asks[0] = some theAsk ∧ theAsk.pos = 5) ∧
    (desk.table[(9 : KeyPos)].hold = .opened ∧ desk.table[(9 : KeyPos)].owner ≠ some 3 ∧
      (desk.setGroup 2 (some ⟨3, .strict, none, 128⟩)).groups[(2 : GroupId)] = some ⟨3, .strict, none, 128⟩) := by
  refine ⟨working_on .., ?_, ?_, ?_, ⟨?_, ?_⟩, ⟨?_, ?_, ?_⟩, ⟨?_, ?_⟩, ?_, ?_, ⟨?_, ?_, ?_⟩, ⟨?_, ?_, ?_⟩⟩
  · intro i a h
    obtain ⟨-, rfl⟩ := (working_asks ..).mp h
    decide
  all_goals decide +kernel

/-- No ask of host 3, and none on a key but 5. -/
theorem no_ask_of_three {q : KeyPos} (h : q ≠ 5) (r : Request) (i : AskId) (b : Ask)
    (hb : (working desk 3 r).asks[i] = some b) : b.asker ≠ 3 ∧ b.pos ≠ q := by
  obtain ⟨-, rfl⟩ := (working_asks ..).mp hb
  exact ⟨by decide, fun e => h e.symm⟩

/-- Key 4 without an owner, key 9 of a LAPSED and of a PRESENT owner, the lowest free id 1. -/
theorem witness_YieldAskOutcomes :
    momentarySet.validate = some ⟨.momentary, 0x1234, .held, .on⟩ ∧
    (WorkingOn (working desk 3 (.yieldAsk 4 momentarySet)) 3 (.yieldAsk 4 momentarySet) ∧
      (∀ (i : AskId) (b : Ask), (working desk 3 (.yieldAsk 4 momentarySet)).asks[i] = some b → b.asker ≠ 3 ∧ b.pos ≠ 4) ∧
      desk.table[(4 : KeyPos)].owner = none ∧ desk.table[(4 : KeyPos)].hold = .opened) ∧
    (let s := (working desk 3 (.yieldAsk 9 momentarySet)).setPresence 1 .lapsed
     WorkingOn s 3 (.yieldAsk 9 momentarySet) ∧ (∀ (i : AskId) (b : Ask), s.asks[i] = some b → b.asker ≠ 3 ∧ b.pos ≠ 9) ∧
      s.table[(9 : KeyPos)].owner = some 1 ∧ s.table[(9 : KeyPos)].hold = .opened ∧ s.presence[(1 : Port)] = .lapsed ∧
      s.HeldLaw ∧ s.OpenLaw ∧ (∀ r ∈ s.held, HeldForm r)) ∧
    (desk.table[(9 : KeyPos)].owner = some 1 ∧ desk.presence[(1 : Port)] = .present ∧ desk.asks[(1 : AskId)] = none ∧
      ∀ j : AskId, j < 1 → desk.asks[j] ≠ none) := by
  refine ⟨by decide, ⟨working_on .., no_ask_of_three (by decide) (.yieldAsk 4 momentarySet), by decide +kernel,
    by decide +kernel⟩,
    ⟨(working_on desk 3 _).congr rfl, no_ask_of_three (by decide) (.yieldAsk 9 momentarySet), by decide +kernel, by decide +kernel, rfl, held_of rfl,
      opened_of rfl rfl, form_of rfl⟩, by decide +kernel, rfl, rfl, by decide +kernel⟩

/-- The decision 2; an id above 3, a free id, another holder's ask; the ask 0 refused and granted. -/
theorem witness_YieldReplyEndsTheAsk :
    (WorkingOn (working desk 1 (.yieldReply 0 2)) 1 (.yieldReply 0 2) ∧ 1 < (2 : Byte).toNat) ∧
    (∀ (i : AskId) (a : Ask), (4 : Byte).toNat = i.1 → (working desk 1 (.yieldReply 4 1)).asks[i] = some a → a.holder ≠ 1) ∧
    (∀ (i : AskId) (a : Ask), (3 : Byte).toNat = i.1 → (working desk 1 (.yieldReply 3 1)).asks[i] = some a → a.holder ≠ 1) ∧
    (∀ (i : AskId) (a : Ask), (0 : Byte).toNat = i.1 → (working desk 3 (.yieldReply 0 1)).asks[i] = some a → a.holder ≠ 3) ∧
    (let s := working desk 1 (.yieldReply 0 1)
     WorkingOn s 1 (.yieldReply 0 1) ∧ (0 : Byte).toNat = (0 : AskId).1 ∧ s.asks[(0 : AskId)] = some theAsk ∧
      theAsk.holder = 1 ∧ WorkingOn s theAsk.asker (.yieldAsk 5 momentarySet) ∧ s.table[theAsk.pos].owner = some 1 ∧
      s.HeldLaw ∧ s.OpenLaw ∧ (∀ r ∈ s.held, HeldForm r)) := by
  refine ⟨⟨working_on .., by decide⟩, ?_, ?_, ?_, ⟨working_on .., rfl, rfl, rfl, rfl, rfl, held_of rfl, opened_of rfl rfl,
    form_of rfl⟩⟩
  · intro i a hi _
    have := i.2
    simp at hi
    omega
  · intro i a hi h
    obtain ⟨rfl, -⟩ := (working_asks ..).mp h
    simp at hi
  · intro i a _ h
    obtain ⟨-, rfl⟩ := (working_asks ..).mp h
    decide

/-- The deadline itself, and the longest wait before it; a deadline one further off than the longest has passed. -/
theorem witness_AskTimesOut :
    desk.asks[(0 : AskId)] = some theAsk ∧ WorkingOn desk theAsk.asker (.yieldAsk 5 momentarySet) ∧
    ({ desk with deskTime := 2100 } : State).deskTime = theAsk.deadline ∧
    (theAsk.deadline - (2100 - 25500)).toNat ≤ 25500 ∧ ((2100 - 25500 : Time) ≠ theAsk.deadline) ∧
    25500 < (theAsk.deadline - (2100 - 25501)).toNat := by
  refine ⟨rfl, rfl, ?_, ?_, ?_, ?_⟩ <;> decide +kernel

/-! ## Witnesses: groups and profiles -/

theorem witness_OpenGroupByState :
    (WorkingOn (working desk 1 (.openGroup 32 0)) 1 (.openGroup 32 0) ∧ 31 < (32 : Byte).toNat ∧ 1 < (2 : Byte).toNat) ∧
    (WorkingOn (working desk 1 (.openGroup 31 1)) 1 (.openGroup 31 1) ∧ (31 : Byte).toNat = (31 : GroupId).1 ∧
      [GroupMode.strict, .loose][(1 : Byte).toNat]? = some .loose ∧ desk.groups[(31 : GroupId)] = none) ∧
    (desk.groups[(3 : GroupId)] = some theGroup ∧ theGroup.owner = 1 ∧ theGroup.owner ≠ 2) := by
  refine ⟨⟨working_on .., ?_, ?_⟩, ⟨working_on .., ?_, ?_, ?_⟩, ?_, ?_, ?_⟩ <;> decide +kernel

theorem witness_CloseGroupAndClearSelection :
    (WorkingOn (working desk 1 (.closeGroup 3)) 1 (.closeGroup 3) ∧ 31 < (32 : Byte).toNat ∧
      desk.groups[(31 : GroupId)] = none ∧ desk.groups[(3 : GroupId)] = some theGroup ∧ theGroup.owner ≠ 2 ∧
      theGroup.owner = 1 ∧ 0 < theGroup.count) ∧
    (let s := desk.setGroup 31 (some ⟨1, .loose, none, 0⟩)
     WorkingOn (working s 1 (.closeGroup 31)) 1 (.closeGroup 31) ∧
      s.groups[(31 : GroupId)] = some ⟨1, .loose, none, 0⟩) ∧
    (WorkingOn (working desk 1 (.clearSelection 3)) 1 (.clearSelection 3) ∧ theGroup.selected = some 6) := by
  refine ⟨⟨working_on .., ?_, ?_, ?_, ?_, ?_, ?_⟩, ⟨working_on .., ?_⟩, working_on .., ?_⟩ <;> decide +kernel

theorem witness_ReadGroupAnswers :
    WorkingOn (working desk 3 (.readGroup 32)) 3 (.readGroup 32) ∧ 31 < (32 : Byte).toNat ∧
    WorkingOn (working desk 3 (.readGroup 31)) 3 (.readGroup 31) ∧ desk.groups[(31 : GroupId)] = none ∧
    WorkingOn (working desk 3 (.readGroup 3)) 3 (.readGroup 3) ∧ desk.groups[(3 : GroupId)] = some theGroup ∧
    (∃ t u, exec (.readGroup 3) (working desk 3 (.readGroup 3)) = .next t ∧ exec (.closeGroup 1) t = .next u) :=
  ⟨working_on .., by decide, working_on .., rfl, working_on .., rfl, ⟨_, _, rfl, rfl⟩⟩

theorem witness_SetProfileReplacesTheFour :
    (∃ x, (inTxn desk 1 .unread).ports[1].txn = some x ∧ x.reading = .unread ∧
      (inTxn desk 1 .unread).ports[1].state = .idle ∧ (1 : Port) ≠ 0) ∧
    (WorkingOn (working desk 0 (.setProfile 8 1 5 0 5)) 0 (.setProfile 8 1 5 0 5) ∧ 7 < (8 : Byte).toNat ∧
      15 < (16 : Byte).toNat ∧ (5 : Byte).toNat < (6 : Byte).toNat) ∧
    (WorkingOn (working desk 0 (.setProfile 7 1 5 15 5)) 0 (.setProfile 7 1 5 15 5) ∧
      (7 : Byte).toNat = (7 : ProfileId).1 ∧ (1 : Byte) ≠ 0 ∧ (5 : Byte) ≠ 0 ∧ (15 : Byte).toNat ≤ 15 ∧
      (5 : Byte).toNat ≤ (5 : Byte).toNat) :=
  ⟨⟨_, rfl, rfl, rfl, by decide⟩, ⟨working_on .., by decide, by decide, by decide⟩,
    working_on .., by decide, by decide, by decide, by decide, by decide⟩

theorem witness_ReadProfileAnswers :
    (WorkingOn (working desk 3 (.readProfile 8)) 3 (.readProfile 8) ∧ 7 < (8 : Byte).toNat) ∧
    (WorkingOn (working desk 3 (.readProfile 7)) 3 (.readProfile 7) ∧ (7 : Byte).toNat = (7 : ProfileId).1) ∧
    (∃ t u, exec (.readProfile 3) (working desk 3 (.readProfile 7)) = .next t ∧ exec .setProfile t = .next u) :=
  ⟨⟨working_on .., by decide⟩, ⟨working_on .., by decide⟩, ⟨_, _, rfl, rfl⟩⟩

/-- The due itself in DELAY; a due taken at the last time it counts as reached; a record that is no longer opened. -/
theorem witness_RepeatDueRepeats :
    desk.HeldLaw ∧ ({ heldKey with pos := 9, phase := .delay 600 } : HeldRecord) ∈ desk.held ∧
    ({ desk with deskTime := 600 } : State).deskTime = (600 : Time) ∧
    2550 < ((600 : Time) - (600 - 2551)).toNat ∧ desk.table[(9 : KeyPos)].cls = .repeating 3 ∧
    heldKey.openedTo = some ⟨1, 7⟩ ∧
    (let s : State := { desk with held := [{ heldKey with pos := 9, openedTo := none, phase := .repeating 100 30 }] }
     s.HeldLaw ∧ s.deskTime = (100 : Time)) := by
  refine ⟨held_of rfl, ?_, ?_, ?_, ?_, ?_, ⟨?_, ?_⟩, ?_⟩ <;> decide +kernel

/-! ## Witnesses: the event engine -/

/-- `desk` with 16 held records, none for key 8. -/
def fullHeld : State :=
  { handed true 8 with held := (List.finRange 16).map (fun i => { heldKey with pos := posOf 3 ⟨i.1, by omega⟩ }) }

/-- An edge whose session has left UP and is UP again. -/
def stale (press : Bool) (q : KeyPos) : State :=
  withLink desk 0 (fun l => { l with edges := [⟨press, q, false⟩] })

/-- An edge that is no longer live, of a session UP again; a session that is no longer UP, a key already held, a full
set at an owned and an unowned key, and presses of an unbound, a MOMENTARY, a REPEATING and a TOGGLE key; and a
PRESS_ONLY one. -/
theorem witness_PressOpensARecord :
    ((stale true 8).links[panelOf 8].edges = [⟨true, 8, false⟩] ∧ (stale true 8).links[panelOf 8].session = panelUp) ∧
    ((withLink (handed true 8) 0 (fun l => { l with session := .holdoff 9 })).links[panelOf 8].edges = [⟨true, 8, true⟩] ∧
      ∀ i last poll,
        (withLink (handed true 8) 0 (fun l => { l with session := .holdoff 9 })).links[panelOf 8].session ≠ .up i last poll) ∧
    ((handed true 5).links[panelOf 5].edges = [⟨true, 5, true⟩] ∧ (handed true 5).links[panelOf 5].session = panelUp ∧
      ∃ r ∈ (handed true 5).held, r.pos = 5) ∧
    (fullHeld.links[panelOf 8].edges = [⟨true, 8, true⟩] ∧ (∀ r ∈ fullHeld.held, r.pos ≠ 8) ∧ 16 ≤ fullHeld.held.length ∧
      fullHeld.table[(8 : KeyPos)].owner = some 1 ∧ fullHeld.table[(10 : KeyPos)].owner = none) ∧
    ((handed true 10).links[panelOf 10].edges = [⟨true, 10, true⟩] ∧ (∀ r ∈ (handed true 10).held, r.pos ≠ 10) ∧
      (handed true 10).held.length < 16 ∧ (handed true 10).table[(10 : KeyPos)].owner = none) ∧
    ((∀ r ∈ (handed true 8).held, r.pos ≠ 8) ∧ (handed true 8).table[(8 : KeyPos)].owner = some 1 ∧
      (handed true 8).table[(8 : KeyPos)].cls = .momentary) ∧
    ((handed true 7).table[(7 : KeyPos)].owner = some 1 ∧ (handed true 7).table[(7 : KeyPos)].cls = .toggle true) ∧
    (let s := (handed true 8).setBinding 8 { hostsKey with cls := .repeating 3 }
     s.links[panelOf 8].edges = [⟨true, 8, true⟩] ∧ s.table[(8 : KeyPos)].cls = .repeating 3) ∧
    (let s := (handed true 8).setBinding 8 { hostsKey with cls := .pressOnly }
     s.links[panelOf 8].edges = [⟨true, 8, true⟩] ∧ s.table[(8 : KeyPos)].cls = .pressOnly) := by
  refine ⟨⟨rfl, rfl⟩, ⟨by decide +kernel, ?_⟩, ?_, ?_, ?_, ?_, ?_, ?_, ?_⟩
  · intro i last poll h
    exact nomatch h
  all_goals decide +kernel

/-- The desk with an edge for key 6 and its group in the state `x`. -/
def groupPress (x : SelGroup) : State := (handed true 6).setGroup 3 (some x)

theorem witness_PressAppliesTheGroupRule :
    (∀ x : SelGroup, (groupPress x).links[panelOf 6].edges = [⟨true, 6, true⟩] ∧
      (groupPress x).links[panelOf 6].session = .up ⟨0x10, 64⟩ .image none ∧
      (∀ r ∈ (groupPress x).held, r.pos ≠ 6) ∧ (groupPress x).held.length < 16 ∧
      (groupPress x).table[(6 : KeyPos)].owner = some 1 ∧ (groupPress x).table[(6 : KeyPos)].cls = .select 3 ∧
      (groupPress x).groups[(3 : GroupId)] = some x) ∧
    ({ theGroup with selected := none } : SelGroup).selected = none ∧
    (({ theGroup with selected := some 8 } : SelGroup).selected = some 8 ∧ (8 : KeyPos) ≠ 6) ∧
    (theGroup.selected = some 6 ∧ theGroup.mode = .strict) ∧
    (({ theGroup with mode := .loose } : SelGroup).selected = some 6 ∧
      ({ theGroup with mode := .loose } : SelGroup).mode = .loose) := by
  refine ⟨fun x => ⟨rfl, rfl, ?_, ?_, rfl, rfl, rfl⟩, rfl, ⟨rfl, by decide⟩, ⟨rfl, rfl⟩, rfl, rfl⟩
  · have : ∀ r ∈ desk.held, r.pos ≠ 6 := by decide +kernel
    exact this
  · show desk.held.length < 16
    decide +kernel

/-- A record with closing due, one without, no record, a session no longer UP, and an edge no longer live. -/
theorem witness_ReleaseClosesTheRecord :
    ((handed false 5).links[panelOf 5].edges = [⟨false, 5, true⟩] ∧ (handed false 5).HeldLaw ∧
      (handed false 5).links[panelOf 5].session = panelUp ∧ heldKey ∈ (handed false 5).held ∧ heldKey.pos = 5 ∧
      heldKey.openedTo = some ⟨1, 7⟩ ∧ heldKey.closingDue = true) ∧
    (let s : State := { handed false 5 with held := [{ heldKey with closingDue := false }] }
     s.HeldLaw ∧ s.links[panelOf 5].edges = [⟨false, 5, true⟩]) ∧
    ((handed false 8).links[panelOf 8].edges = [⟨false, 8, true⟩] ∧ (∀ r ∈ (handed false 8).held, r.pos ≠ 8)) ∧
    ((withLink (handed false 5) 0 (fun l => { l with session := .off })).links[panelOf 5].edges = [⟨false, 5, true⟩] ∧
      (withLink (handed false 5) 0 (fun l => { l with session := .off })).HeldLaw) ∧
    ((stale false 5).links[panelOf 5].edges = [⟨false, 5, false⟩] ∧ (stale false 5).HeldLaw ∧
      (stale false 5).links[panelOf 5].session = panelUp) := by
  refine ⟨⟨rfl, held_of rfl, rfl, ?_, rfl, rfl, rfl⟩, ⟨⟨?_, ?_⟩, rfl⟩, ⟨rfl, ?_⟩, ⟨rfl, held_of rfl⟩, rfl, held_of rfl,
    rfl⟩ <;> decide +kernel

/-! ## Witnesses: links and lamps -/

/-- Poll intervals 1 and 21 and a yield wait of 0; the bounds 2 and 20, with a mask that changes and one that does
not. -/
theorem witness_SetLinksHandsTheChanges :
    (∀ n : LinkId, (working desk 0 (.setLinks 0xFF 1 1)).links[n].handed = none) ∧
    WorkingOn (working desk 0 (.setLinks 0xFF 1 1)) 0 (.setLinks 0xFF 1 1) ∧ (1 : Byte).toNat < 2 ∧
    20 < (21 : Byte).toNat ∧ WorkingOn (working desk 0 (.setLinks 0xFF 2 1)) 0 (.setLinks 0xFF 2 1) ∧
    2 ≤ (2 : Byte).toNat ∧ (20 : Byte).toNat ≤ 20 ∧ (1 : Byte) ≠ 0 ∧ (0xFF : Byte) = desk.mask ∧ (0x7F : Byte) ≠ desk.mask := by
  refine ⟨?_, working_on .., ?_, ?_, working_on .., ?_, ?_, ?_, ?_, ?_⟩ <;> decide +kernel

/-- The last change taken and one before the last; of a link in OFF, in UP and in PROBING. -/
theorem witness_LinksAreEnabledAndDisabled :
    (let s := withLink (working desk 0 (.setLinks 0xFF 5 20)) 7 (fun l => { l with session := .off, handed := some true })
     WorkingOn s 0 (.setLinks 0xFF 5 20) ∧ s.links[(7 : LinkId)].handed = some true ∧ s.links[(7 : LinkId)].session = .off ∧
      ∀ k : LinkId, k ≠ 7 → s.links[k].handed = none) ∧
    (let s := withLink (withLink (working desk 0 (.setLinks 0 5 20)) 0 (fun l => { l with handed := some false })) 4
      (fun l => { l with handed := some false })
     WorkingOn s 0 (.setLinks 0 5 20) ∧ s.links[(0 : LinkId)].handed = some false ∧
      s.links[(0 : LinkId)].session.isSession = true ∧ s.HeldLaw ∧ s.links[(4 : LinkId)].session.isSession = false ∧
      ∃ k : LinkId, k ≠ 0 ∧ s.links[k].handed ≠ none) ∧
    (let s := withLink (working desk 0 (.setLinks 0xFF 5 20)) 0 (fun l => { l with handed := some true })
     s.links[(0 : LinkId)].handed = some true ∧ s.links[(0 : LinkId)].session ≠ .off) := by
  refine ⟨⟨(working_on desk 0 _).congr rfl, ?_, ?_, ?_⟩, ⟨(working_on desk 0 _).congr rfl, ?_, ?_, held_of rfl, ?_, ?_⟩, ?_, ?_⟩ <;>
    decide +kernel

/-- Each timer at its end, one past it, and at the longest time before it; a first POLL and one that is not yet due. -/
theorem witness_TimersBeginOrders :
    (let s := withLink desk 4 (fun l => { l with inFlight := none, lck := .high })
     s.links[(4 : LinkId)].session = .probing 250 ∧ s.links[(4 : LinkId)].inFlight = none ∧
      250 < ((250 : Time) - (250 - 251)).toNat ∧ ((250 : Time) - (250 - 250)).toNat ≤ 250 ∧
      ((250 : Time) - s.deskTime).toNat ≤ 250) ∧
    (let s := withLink desk 4 (fun l => { l with session := .holdoff 1100, inFlight := none, lck := .high })
     s.links[(4 : LinkId)].session = .holdoff 1100 ∧ s.deskTime ≠ (1100 : Time) ∧ ((1100 : Time) - s.deskTime).toNat ≤ 1000) ∧
    (desk.links[(0 : LinkId)].session = .up ⟨0x10, 64⟩ .image none ∧ desk.links[(0 : LinkId)].inFlight = none) ∧
    (let s := withLink desk 0 (fun l => { l with session := .up ⟨0x10, 64⟩ .poll (some 96) })
     s.links[(0 : LinkId)].session = .up ⟨0x10, 64⟩ .poll (some 96) ∧
      (s.deskTime - (96 : Time)).toNat < s.pollInterval.toNat) := by
  decide +kernel

/-- Panel 0 of `desk` in SYNCING, its keys 5 and 9 held. -/
def syncing : State :=
  withLink desk 0 (fun l => { l with session := .syncing .lost ⟨0x10, 64⟩ .poll, inFlight := some ⟨.image, 1⟩ })

/-- Key counts 1 and 128; SYNCING with an image in which key 5 is up, key 9 still down and key 8 newly down, none of
the keys found down naming a group; and one in which key 6, of group 3, is found down; every lamp as its binding calls
for. -/
theorem witness_SessionsBeginAndSynchronise :
    (desk.links[(4 : LinkId)].session = .probing 250 ∧ desk.links[(4 : LinkId)].inFlight = some ⟨.identify, 1⟩ ∧
      1 ≤ (1 : Byte).toNat ∧ (128 : Byte).toNat ≤ 128) ∧
    (syncing.links[(0 : LinkId)].session = .syncing .lost ⟨0x10, 64⟩ .poll ∧
      syncing.links[(0 : LinkId)].inFlight = some ⟨.image, 1⟩ ∧ syncing.HeldLaw ∧
      syncing.held.filter (goneFrom 0 0x300) = [heldKey] ∧ syncing.foundDown 0 64 0x300 = [8] ∧
      (∀ q ∈ syncing.foundDown 0 64 0x300, syncing.table[q].cls.group? = none) ∧ syncing.foundDown 0 64 0x240 = [6]) ∧
    (∀ q : KeyPos, State.reset.derived[q] = State.reset.lampFor q) := by
  refine ⟨by decide +kernel, ⟨rfl, rfl, held_of rfl, ?_, ?_, ?_, ?_⟩, ?_⟩
  · decide +kernel
  · decide +kernel
  · decide +kernel
  · decide +kernel
  · intro q
    simp [State.reset, State.lampFor, Binding.unbound]

/-- A POLL in flight with a key at the key count and one below it; every block dirty, and none; a LAMP in flight. -/
theorem witness_GoodRepliesInUp :
    ((sent (.poll false)).links[(0 : LinkId)].session = panelUp ∧
      (sent (.poll false)).links[(0 : LinkId)].inFlight = some ⟨.poll false, 1⟩ ∧
      (sent (.poll false)).links[(0 : LinkId)].bitL = false ∧ (true ≠ false) ∧
      64 ≤ (64 : BitVec 7).toNat ∧ (63 : BitVec 7).toNat < 64) ∧
    ((sent (.poll false)).dirty[panelBlock 0 0] = true ∧
      ∀ b : Fin 16, ({ sent (.poll false) with dirty := Vector.replicate 128 false } : State).dirty[panelBlock 0 b] = false) ∧
    (sent (.lamp 2 block)).links[(0 : LinkId)].inFlight = some ⟨.lamp 2 block, 1⟩ ∧
    (let s := fun o => withLink (sent o) 0 (fun l => { l with session := .syncing .reset ⟨0x10, 64⟩ .poll })
     (s (.poll false)).links[(0 : LinkId)].session = .syncing .reset ⟨0x10, 64⟩ .poll ∧
      (s (.poll false)).links[(0 : LinkId)].inFlight = some ⟨.poll false, 1⟩ ∧
      (s (.lamp 2 block)).links[(0 : LinkId)].inFlight = some ⟨.lamp 2 block, 1⟩) := by
  decide +kernel

theorem witness_LostReplyResynchronises :
    ((sent (.poll false)).links[(0 : LinkId)].inFlight = some ⟨.poll false, 1⟩ ∧
      (sent (.poll false)).links[(0 : LinkId)].session = .up ⟨0x10, 64⟩ .image none) ∧
    (withLink (sent (.poll false)) 0 (fun l => { l with session := .syncing .reset ⟨0x10, 64⟩ .poll })).links[(0 : LinkId)].session
      = .syncing .reset ⟨0x10, 64⟩ .poll := by
  decide +kernel

/-- The first failure and the third, in UP with keys held, in SYNCING and in PROBING; replies that do not fit: AGAIN,
an ACCEPT and an IMAGE to a POLL, a LOST to a LAMP, an IDENT with key count 0 or 129. -/
theorem witness_FailedExchanges :
    ((sent (.poll false)).links[(0 : LinkId)].inFlight = some ⟨.poll false, 1⟩ ∧
      (sent (.poll false)).links[(0 : LinkId)].session.isSession = true ∧
      (sent (.poll false)).links[(0 : LinkId)].failures < 2 ∧ fits (.poll false) .again = false ∧
      fits (.poll false) .accept = false ∧ fits (.poll false) (.image 0) = false ∧ fits (.lamp 2 block) .lost = false ∧
      fits .identify (.ident 7 0) = false ∧ fits .identify (.ident 7 129) = false) ∧
    (let s := withLink (sent (.poll false)) 0 (fun l => { l with failures := 2 })
     s.links[(0 : LinkId)].session.isSession = true ∧ s.links[(0 : LinkId)].failures = 2 ∧ s.HeldLaw ∧
      ∃ r ∈ s.held, panelOf r.pos = 0) ∧
    (let s := withLink desk 4 (fun l =>
        { l with session := .syncing .new ⟨0x22, 128⟩ .identify, inFlight := some ⟨.image, 3⟩, failures := 2 })
     s.links[(4 : LinkId)].inFlight = some ⟨.image, 3⟩ ∧ s.links[(4 : LinkId)].session.isSession = true ∧
      s.links[(4 : LinkId)].failures = 2) ∧
    (desk.links[(4 : LinkId)].session = .probing 250 ∧ desk.links[(4 : LinkId)].inFlight = some ⟨.identify, 1⟩) := by
  refine ⟨by decide +kernel, ⟨rfl, rfl, held_of rfl, ?_⟩, by decide +kernel, rfl, rfl⟩
  decide +kernel

/-- An acceptance for a panel in UP, and for one in HOLDOFF. -/
theorem witness_AcceptanceWritesSent :
    (let s := withLink desk 0 (fun l => { l with acceptances := [⟨15, block⟩] })
     s.links[(0 : LinkId)].acceptances = [⟨15, block⟩] ∧ s.links[(0 : LinkId)].session = .up ⟨0x10, 64⟩ .image none) ∧
    (let s := withLink desk 4 (fun l => { l with session := .holdoff 9, acceptances := [⟨0, block⟩] })
     s.links[(4 : LinkId)].acceptances = [⟨0, block⟩] ∧ ∀ i last start, s.links[(4 : LinkId)].session ≠ .up i last start) :=
  ⟨⟨rfl, rfl⟩, rfl, fun _ _ _ h => nomatch h⟩

/-- Unbound, owned and FIXED keys, a pending ask, a port whose lapse time is not 0, and sessions in UP, with and
without an exchange in flight, and in PROBING. -/
theorem witness_DeskResetClearsTheDesk :
    (let s := working desk 0 .deskReset
     WorkingOn s 0 .deskReset ∧ s.YieldLaw ∧ s.table[(4 : KeyPos)].owner = none ∧
      (s.table[(5 : KeyPos)].owner ≠ none ∧ s.table[(5 : KeyPos)].hold ≠ .fixed) ∧
      (s.table[(7 : KeyPos)].hold = .fixed ∧ s.table[(7 : KeyPos)].cls = .toggle true) ∧ s.asks[(0 : AskId)] = some theAsk ∧
      (s.links[(0 : LinkId)].session = .up ⟨0x10, 64⟩ .image none ∧ s.links[(0 : LinkId)].inFlight = none) ∧
      ∀ i last start, s.links[(4 : LinkId)].session ≠ .up i last start) ∧
    (let s := (working desk 0 .deskReset).setPort 1 { desk.ports[1] with lapseTime := 1 }
     WorkingOn s 0 .deskReset ∧ s.YieldLaw ∧ s.ports[(1 : Port)].lapseTime ≠ 0 ∧ s.ports[(1 : Port)].csLow = false) ∧
    (let s := working (sent (.poll false)) 0 .deskReset
     WorkingOn s 0 .deskReset ∧ s.YieldLaw ∧ s.links[(0 : LinkId)].inFlight = some ⟨.poll false, 1⟩) := by
  refine ⟨⟨working_on .., yield_working 0 _ (by decide), ?_, ⟨?_, ?_⟩, ⟨?_, ?_⟩, rfl, ⟨rfl, rfl⟩, fun _ _ _ h => nomatch h⟩,
    ⟨rfl, yield_of rfl rfl rfl rfl, ?_, rfl⟩, working_on .., yield_of rfl rfl rfl rfl, rfl⟩ <;> decide +kernel

/-! ## Witnesses: the wire -/

/-- The longest wait; a reply that fits, the reply AGAIN, and the bounds of the key count. -/
theorem witness_RepliesAreReadWhole :
    (24 ≤ 24) ∧ fits (.poll true) .nothing = true ∧ fits .identify (.ident 0x22 128) = true ∧
    fits .identify (.ident 0x22 1) = true ∧ fits .image (.image 8) = true ∧ Reply.again = .again ∧
    LinkEngine.initial.inFlight = some ⟨.identify, 1⟩ ∧ LinkEngine.inReset.inFlight = none := by
  decide

/-- The first and the last bit after the start bit; the K flag of the first frame of an order and the last stop bit of a
LAMP; a code of no order; a block index of 16; the last bit at which a LAMP can be cut short. -/
theorem witness_SingleFaultIsFound :
    (0 < 11) ∧ (10 < 11) ∧ (LinkOrder.lamp 2 block).message.bits.length = 48 ∧ 1 % 12 ≠ 0 ∧ 47 % 12 ≠ 0 ∧
    0x00#8 ∉ [0x51#8, 0x52#8, 0x53#8, 0x54#8] ∧ 15 < (16 : Byte).toNat := by
  decide +kernel

/-- A panel with two edges in its buffer, the older reported and not yet acknowledged, whose link has and has not
accepted it; and a panel with an empty buffer. -/
theorem witness_EdgesArriveOnceInOrder :
    let x := thePanel
    x.lost = false ∧ (x.outstanding = true → x.buffer ≠ []) ∧
    (x.poll true).2 = .edge false true 1 ∧ (x.poll false).2 = .edge true true 0 ∧
    (({ x with buffer := [], outstanding := false } : Panel).poll true).2 = .nothing := by
  decide +kernel

end Sys2Proof.Tests
end

section
/-! PROOF. The range check (R2) and the range requests that fail it. -/

namespace Sys2Proof.Machine

/-! ## The range check and a range request that fails it -/

/-- A range is refused on its first position, its count, or a panel boundary it crosses, and on nothing else. -/
theorem rangeOf_eq_none_iff (f : Half) (n : Byte) : rangeOf f n = none ↔
    1023 < f.toNat ∨ n.toNat = 0 ∨ 128 < n.toNat ∨ 128 < f.toNat % 128 + n.toNat := by
  have refused : rangeOf f n = none ↔ ¬ rangeOk f n = true := by simp [rangeOf]
  rw [refused, rangeOk_iff]
  omega

/-- The range check comes first: a range request that fails it only answers, whatever its other checks and its effect
would be (R2, R3). -/
theorem State.rangeRequest_badPosition {f : Half} {n : Byte} (h : rangeOf f n = none) (s : State) (p : Port)
    (whole : Option StatusCode) (failure : List KeyPos → Option (StatusCode × Nat)) (effect : State → KeyPos → State) :
    s.rangeRequest p f n whole failure effect = s.answer p .badPosition [0] := by
  simp only [State.rangeRequest, h]

/-- A command whose meaning is a range request of the port's request answers BAD_POSITION alone where the range check
fails. -/
theorem onlyAnswers_badPosition {s : State} {c : Instr} {p : Port} {r : Request} {f : Half} {n : Byte}
    {whole : Option StatusCode} {failure : List KeyPos → Option (StatusCode × Nat)} {effect : State → KeyPos → State}
    (hr : rangeOf f n = none) (hw : WorkingOn s p r)
    (he : exec c s = .next (s.rangeRequest p f n whole failure effect)) :
    OnlyAnswers c s p .badPosition r.code [0] :=
  onlyAnswers_of hw rfl (by rw [he, State.rangeRequest_badPosition hr])

/-! ## The range request each command makes of its port's request -/

section
variable {s : State} {p : Port} {f : Half} {n : Byte}

theorem exec_claim_of_bad_set {raw : RawAttrs} (hw : WorkingOn s p (.claim f n raw)) (hv : raw.validate = none) :
    exec (.claim p) s = .next (s.rangeRequest p f n (some .badAttr) (fun _ => none) (fun t _ => t)) := by
  show execClaim p s = _
  simp only [execClaim, State.requestOf_working hw, hv]

theorem exec_claim_of_good_set {raw : RawAttrs} {a : AttrSet} (hw : WorkingOn s p (.claim f n raw))
    (hv : raw.validate = some a) :
    exec (.claim p) s = .next (s.rangeRequest p f n (s.groupRefusal p a)
      (s.claimFailure p a.cls.group? (s.membersOf a.cls.group?) 0) (State.claimPos p a)) := by
  show execClaim p s = _
  simp only [execClaim, State.requestOf_working hw, hv]

theorem exec_release_working (hw : WorkingOn s p (.release f n)) :
    exec (.release p) s = .next (s.rangeRequest p f n none (firstFailure (s.ownRefusal p) 0)
      (fun t q => t.releasePos true q)) := by
  show execRelease p s = _
  simp only [execRelease, State.requestOf_working hw]

theorem exec_pin_working (hw : WorkingOn s p (.pin f n)) :
    exec (.pin p) s = .next (s.rangeRequest p f n none (firstFailure (s.ownRefusal p) 0)
      (fun t q => (t.setHold .pinned q).endAskOn q .refused)) := by
  show execPin p s = _
  simp only [execPin, State.requestOf_working hw]

theorem exec_unpin_working (hw : WorkingOn s p (.unpin f n)) :
    exec (.unpin p) s = .next (s.rangeRequest p f n none (firstFailure (s.ownRefusal p) 0)
      (fun t q => t.setHold .opened q)) := by
  show execUnpin p s = _
  simp only [execUnpin, State.requestOf_working hw]

theorem exec_fix_working (hw : WorkingOn s 0 (.fix f n)) :
    exec .fix s = .next (s.rangeRequest 0 f n none (firstFailure s.fixRefusal 0)
      (fun t q => (t.setHold .fixed q).endAskOn q .fixed)) := by
  show execFix s = _
  simp only [execFix, State.requestOf_working hw]

theorem exec_lamp_of_bad_value {v : Byte} (hw : WorkingOn s p (.lamp f n v)) (hv : lampValueOf v = none) :
    exec (.lamp p) s = .next (s.rangeRequest p f n (some .badAttr) (fun _ => none) (fun t _ => t)) := by
  show execLamp p s = _
  simp only [execLamp, State.requestOf_working hw, hv]

theorem exec_lamp_of_good_value {v : Byte} {l : Lamp} (hw : WorkingOn s p (.lamp f n v)) (hv : lampValueOf v = some l) :
    exec (.lamp p) s = .next (s.rangeRequest p f n none (firstFailure (s.lampRefusal p) 0) (State.setLampValue l)) := by
  show execLamp p s = _
  simp only [execLamp, State.requestOf_working hw, hv]

/-! ## CLAIM and LAMP check the range before their other operands (R2, R3) -/

theorem claim_badPosition {raw : RawAttrs} (hr : rangeOf f n = none) (hw : WorkingOn s p (.claim f n raw)) :
    OnlyAnswers (.claim p) s p .badPosition 0x10 [0] := by
  cases hv : raw.validate with
  | none => exact onlyAnswers_badPosition hr hw (exec_claim_of_bad_set hw hv)
  | some a => exact onlyAnswers_badPosition hr hw (exec_claim_of_good_set hw hv)

theorem lamp_badPosition {v : Byte} (hr : rangeOf f n = none) (hw : WorkingOn s p (.lamp f n v)) :
    OnlyAnswers (.lamp p) s p .badPosition 0x15 [0] := by
  cases hv : lampValueOf v with
  | none => exact onlyAnswers_badPosition hr hw (exec_lamp_of_bad_value hw hv)
  | some l => exact onlyAnswers_badPosition hr hw (exec_lamp_of_good_value hw hv)

end

/-- Settles O25: the range check from the arithmetic of its three conditions, the refusals from the range request each
command makes. -/
theorem rangeCheck : Obligations.RangeCheck := by
  refine ⟨fun f n => ⟨rangeOf_eq_none_iff f n, fun _ h => rangeOf_vals h⟩, fun s p f n hr => ?_⟩
  refine ⟨fun _ hw => claim_badPosition hr hw, fun hw => ?release, fun hw => ?pin, fun hw => ?unpin, fun hw => ?fix,
    fun _ hw => lamp_badPosition hr hw⟩
  case release => exact onlyAnswers_badPosition hr hw (exec_release_working hw)
  case pin => exact onlyAnswers_badPosition hr hw (exec_pin_working hw)
  case unpin => exact onlyAnswers_badPosition hr hw (exec_unpin_working hw)
  case fix => exact onlyAnswers_badPosition hr hw (exec_fix_working hw)

end Sys2Proof.Machine
end

section
/-! PROOF. The repeat profiles: SET PROFILE at the port and at the repeat timer (R85), READ PROFILE (R86). -/

namespace Sys2Proof.Machine

/-! ## A request taken by an idle port (R176) -/

/-- Replacing one port unit changes the ports alone. -/
theorem onlyChanges_setPort (s : State) (p : Port) (u : PortUnit) : OnlyChanges s (s.setPort p u) [.ports] := by
  intro x hx
  cases x
  case ports => exact absurd (by simp) hx
  all_goals rfl

/-- A SUBMIT at an IDLE port leaves the port in the state that the checks of R176 give, and no other part changes. -/
theorem submit_at_idle {s : State} {p : Port} {x : Transaction} (hx : s.ports[p].txn = some x)
    (hr : x.reading = .unread) (hi : s.ports[p].state = .idle) (bytes : List Byte) :
    ∃ u, exec (.submit p bytes) s = .next u ∧ u.ports[p].state = takeSubmit p bytes ∧ OnlyChanges s u [.ports] := by
  refine ⟨s.setPort p { ((s.ports[p].takeKind x .unread).risen s.deskTime).submitted p bytes with
    lastOut := x.submitOut bytes }, ?_, ?_, onlyChanges_setPort _ _ _⟩
  · show execSubmit p bytes s = _
    simp only [execSubmit, hx, hr]
  · have idle : ((s.ports[p].takeKind x .unread).risen s.deskTime).state = .idle := hi
    rw [State.setPort_ports, upd_self]
    simp only [PortUnit.submitted, idle]

/-- Ports 1 to 3 answer SUPERVISOR to each request marked (sup), whatever follows its operand bytes. -/
theorem takeSubmit_supervisor {p : Port} (hp : p ≠ 0) {r : Request} (hr : r.supervisorOnly = true)
    (extra : List Byte) : takeSubmit p (r.code :: (r.operands ++ extra)) = portAnswer .supervisor r.code := by
  have long : ¬ (r.operands ++ extra).length < r.operands.length := by simp
  simp only [takeSubmit, operandLength_code, readRequest_operands, long, hr]
  simp [hp]

/-! ## Answers -/

/-- After a command that only answers a port, the port is ANSWERED with that answer. -/
theorem OnlyAnswers.state {c : Instr} {s t : State} {p : Port} {st : StatusCode} {code : Byte} {d : List Byte}
    (h : OnlyAnswers c s p st code d) (he : exec c s = .next t) : t.ports[p].state = .answered ⟨st, code, d⟩ := by
  obtain ⟨u, hu, hports, -⟩ := h
  obtain rfl : u = t := Host.Outcome.next.inj (hu.symm.trans he)
  rw [hports, upd_self]

/-- An answer that a port holds is not replaced by an answer to any port (R178). -/
theorem State.answer_keeps_answered {s : State} {p : Port} {a : Answer} (h : s.ports[p].state = .answered a) (k : Port)
    (st : StatusCode) (d : List Byte) : (s.answer k st d).ports[p].state = .answered a := by
  by_cases e : k = p
  · subst e
    have idle : ∀ r, ¬ WorkingOn s k r := fun r hw => nomatch hw.symm.trans h
    rw [State.answer_not_working idle, h]
  · rw [State.answer_other s e, h]

/-! ## SET PROFILE (R85) -/

theorem Profile.ok_iff (d e t f : Byte) : Profile.ok ⟨d, e, t, f⟩ = true ↔
    d ≠ 0 ∧ e ≠ 0 ∧ t.toNat ≤ 15 ∧ f ≠ 0 ∧ f.toNat ≤ e.toNat := by
  simp [Profile.ok, and_assoc]

section
variable {s : State} {n d e t f : Byte}

theorem exec_setProfile_accepted {i : ProfileId} (hw : WorkingOn s 0 (.setProfile n d e t f)) (hi : n.toNat = i.1)
    (hok : Profile.ok ⟨d, e, t, f⟩ = true) :
    exec .setProfile s = .next ({ s with profiles := upd s.profiles i ⟨d, e, t, f⟩ }.answer 0 .ok []) := by
  show execSetProfile s = _
  simp only [execSetProfile, State.requestOf_working hw, index_eq hi, hok, if_true]

theorem exec_setProfile_of_no_profile (hw : WorkingOn s 0 (.setProfile n d e t f)) (hn : 7 < n.toNat) :
    exec .setProfile s = .next (s.answer 0 .badAttr []) := by
  show execSetProfile s = _
  simp only [execSetProfile, State.requestOf_working hw, index_none hn]

theorem exec_setProfile_of_bad_values (hw : WorkingOn s 0 (.setProfile n d e t f))
    (hbad : ¬ Profile.ok ⟨d, e, t, f⟩ = true) : exec .setProfile s = .next (s.answer 0 .badAttr []) := by
  show execSetProfile s = _
  cases hi : index 8 n with
  | none => simp only [execSetProfile, State.requestOf_working hw, hi]
  | some i => simp only [execSetProfile, State.requestOf_working hw, hi, if_neg hbad]

/-- The answer to an accepted SET PROFILE changes the profiles and its port, and nothing else. -/
theorem setProfile_accepted {i : ProfileId} (hw : WorkingOn s 0 (.setProfile n d e t f)) (hi : n.toNat = i.1)
    (hok : Profile.ok ⟨d, e, t, f⟩ = true) :
    ∃ u, exec .setProfile s = .next u ∧ Answers s u 0 .ok 0x40 [] ∧ u.profiles = upd s.profiles i ⟨d, e, t, f⟩ ∧
      OnlyChanges s u [.profiles, .ports] := by
  have hw' : WorkingOn { s with profiles := upd s.profiles i ⟨d, e, t, f⟩ } 0 (.setProfile n d e t f) := hw
  refine ⟨_, exec_setProfile_accepted hw hi hok, ?_⟩
  rw [State.answer_working hw']
  refine ⟨rfl, rfl, fun x hx => ?_⟩
  cases x
  case profiles | ports => exact absurd (by simp) hx
  all_goals rfl

end

/-- Whatever state it is taken in, SET PROFILE changes the ports by no more than one answer to port 0. -/
theorem exec_setProfile_ports {s u : State} (h : exec .setProfile s = .next u) :
    u = s ∨ ∃ (v : State) (st : StatusCode), v.ports = s.ports ∧ u = v.answer 0 st [] := by
  have hu : execSetProfile s = .next u := h
  simp only [execSetProfile, Host.Outcome.next.injEq] at hu
  split at hu
  next =>
    split at hu
    next => exact .inr ⟨s, .badAttr, rfl, hu.symm⟩
    next =>
      split at hu
      · refine .inr ⟨_, .ok, ?_, hu.symm⟩
        rfl
      · exact .inr ⟨s, .badAttr, rfl, hu.symm⟩
  next => exact .inl hu.symm

theorem setProfile_keeps_answered {s u : State} {p : Port} {a : Answer} (ha : s.ports[p].state = .answered a)
    (h : exec .setProfile s = .next u) : u.ports[p].state = .answered a := by
  obtain rfl | ⟨v, st, hv, rfl⟩ := exec_setProfile_ports h
  · exact ha
  · exact State.answer_keeps_answered (hv ▸ ha) 0 st []

/-- Settles O43: the refusal on ports 1 to 3 from the checks of a SUBMIT, the rest from the two tests of the repeat timer,
the profile number and then the four values. -/
theorem setProfileReplacesTheFour : Obligations.SetProfileReplacesTheFour := by
  refine ⟨fun s p x n d e t f hp hx hr hi => ?port, fun s n d e t f hw => ⟨fun hbad => ?refused, ?accepted⟩⟩
  case port =>
    obtain ⟨u, hu, hstate, honly⟩ := submit_at_idle hx hr hi [0x40, n, d, e, t, f]
    exact ⟨u, hu, hstate.trans (takeSubmit_supervisor (r := .setProfile n d e t f) hp rfl []), honly⟩
  case refused =>
    obtain hn | hvalues := hbad
    · exact onlyAnswers_of hw rfl (exec_setProfile_of_no_profile hw hn)
    · refine onlyAnswers_of hw rfl (exec_setProfile_of_bad_values hw fun hok => ?_)
      obtain ⟨hd, he, ht, hf, hfe⟩ := (Profile.ok_iff d e t f).mp hok
      simp only [hd, he, hf, false_or] at hvalues
      omega
  case accepted =>
    intro i hi hd he ht hf hfe
    exact setProfile_accepted hw hi ((Profile.ok_iff d e t f).mpr ⟨hd, he, ht, hf, hfe⟩)

/-! ## READ PROFILE (R86) -/

section
variable {s : State} {p : Port} {n : Byte}

theorem readProfile_of_no_profile (hw : WorkingOn s p (.readProfile n)) (hn : 7 < n.toNat) :
    OnlyAnswers (.readProfile p) s p .badAttr 0x41 [] := by
  refine onlyAnswers_of hw rfl ?_
  show execReadProfile p s = _
  simp only [execReadProfile, State.requestOf_working hw, index_none hn]

theorem readProfile_of_profile {i : ProfileId} (hw : WorkingOn s p (.readProfile n)) (hi : n.toNat = i.1) :
    OnlyAnswers (.readProfile p) s p .ok 0x41 s.profiles[i].bytes := by
  refine onlyAnswers_of hw rfl ?_
  show execReadProfile p s = _
  simp only [execReadProfile, State.requestOf_working hw, index_eq hi]

theorem readProfile_answers (hw : WorkingOn s p (.readProfile n)) {t : State} (h : exec (.readProfile p) s = .next t) :
    ∃ a, t.ports[p].state = .answered a := by
  by_cases hn : n.toNat < 8
  · exact ⟨_, (readProfile_of_profile (i := ⟨n.toNat, hn⟩) hw rfl).state h⟩
  · exact ⟨_, (readProfile_of_no_profile hw (by omega)).state h⟩

end

/-- Settles O44: after either answer the port is ANSWERED, and a SET PROFILE leaves an ANSWERED port as it is. -/
theorem readProfileAnswers : Obligations.ReadProfileAnswers := by
  refine fun s p n hw => ⟨readProfile_of_no_profile hw, fun i hi => readProfile_of_profile hw hi, fun t u ht hu => ?_⟩
  obtain ⟨a, ha⟩ := readProfile_answers hw ht
  rw [setProfile_keeps_answered ha hu, ha]

end Sys2Proof.Machine
end

section
/-! PROOF. READ GROUP (R101), and that an answer held by a port outlasts every command but its own consumption and
power-on (R177, R178, R180). -/

namespace Sys2Proof.Machine

/-! ## From one state to another, every answer that a port holds stands -/

/-- Every port ANSWERED in `s` is ANSWERED in `t` with the same answer. -/
def AnswersStand (s t : State) : Prop :=
  ∀ (p : Port) (a : Answer), s.ports[p].state = .answered a → t.ports[p].state = .answered a

theorem AnswersStand.refl (s : State) : AnswersStand s s :=
  fun _ _ h => h

section
variable {s t u : State}

theorem AnswersStand.trans (h : AnswersStand s t) (k : AnswersStand t u) : AnswersStand s u :=
  fun p a ha => k p a (h p a ha)

theorem AnswersStand.of_ports (h : AnswersStand s t) (e : u.ports = t.ports) : AnswersStand s u :=
  fun p a ha => by rw [e]; exact h p a ha

theorem AnswersStand.rederive (h : AnswersStand s t) (q : KeyPos) : AnswersStand s (t.rederive q) :=
  h.of_ports (by simp)

theorem AnswersStand.answer (h : AnswersStand s t) (k : Port) (st : StatusCode) (d : List Byte) :
    AnswersStand s (t.answer k st d) :=
  fun p a ha => State.answer_keeps_answered (h p a ha) k st d

theorem AnswersStand.answerGranted (h : AnswersStand s t) (k : Port) (q : KeyPos) :
    AnswersStand s (t.answerGranted k q) :=
  h.answer k .granted _

/-- A port unit replaced by one that keeps the answer it may hold. -/
theorem AnswersStand.setPort (h : AnswersStand s t) {k : Port} {x : PortUnit}
    (hx : ∀ a, t.ports[k].state = .answered a → x.state = .answered a) : AnswersStand s (t.setPort k x) := by
  intro p a ha
  by_cases e : k = p
  · subst e
    rw [State.setPort_ports, upd_self]
    exact hx a (h k a ha)
  · rw [State.setPort_ports, upd_ne _ _ _ _ e]
    exact h p a ha

theorem AnswersStand.foldl {α : Type} {g : State → α → State} (hg : ∀ t x, AnswersStand t (g t x)) (l : List α)
    (h : AnswersStand s t) : AnswersStand s (l.foldl g t) := by
  induction l generalizing t with
  | nil => exact h
  | cons x xs ih => exact ih (h.trans (hg t x))

end

/-! ## The shared operations -/

section
variable (s : State)

theorem State.endAsk_answersStand (i : AskId) (a : Ask) (st : StatusCode) : AnswersStand s (s.endAsk i a st) :=
  ((AnswersStand.refl s).of_ports (by simp)).answer a.asker st []

theorem State.closeAsk_answersStand (i : AskId) (a : Ask) (st : StatusCode) (why : CloseReason) (b : Binding) :
    AnswersStand s (s.closeAsk i a st why b) :=
  (s.endAsk_answersStand i a st).of_ports (by simp [State.closeAsk])

theorem State.endAskOn_answersStand (q : KeyPos) (st : StatusCode) : AnswersStand s (s.endAskOn q st) := by
  unfold State.endAskOn
  split
  · exact .refl s
  · exact s.endAsk_answersStand _ _ st

theorem State.resetAskOn_answersStand (q : KeyPos) (b : Binding) : AnswersStand s (s.resetAskOn q b) := by
  unfold State.resetAskOn
  split
  · exact .refl s
  · exact s.closeAsk_answersStand _ _ _ _ b

theorem State.grant_answersStand (e : Option AskId) (k h : Port) (a : AttrSet) (q : KeyPos) :
    AnswersStand s (s.grant e k h a q) := by
  refine AnswersStand.rederive (.answerGranted (.of_ports (.refl s) ?ports) k q) q
  case ports => simp

theorem State.grantReleased_answersStand (announce : Bool) (b : Binding) (q : KeyPos) :
    AnswersStand s (s.grantReleased announce b q) := by
  unfold State.grantReleased
  split
  · exact .refl s
  · refine .rederive (.answerGranted (.of_ports (.refl s) ?ports) _ q) q
    case ports => cases announce <;> simp

theorem State.releasePos_answersStand (announce : Bool) (q : KeyPos) :
    AnswersStand s (s.releasePos announce q) := by
  refine .rederive (.trans (.of_ports (.refl s) ?ports) (State.grantReleased_answersStand _ announce _ q)) q
  case ports => simp

theorem State.rangeRequest_answersStand (p : Port) (f : Half) (n : Byte) (whole : Option StatusCode)
    (failure : List KeyPos → Option (StatusCode × Nat)) {effect : State → KeyPos → State}
    (he : ∀ t q, AnswersStand t (effect t q)) : AnswersStand s (s.rangeRequest p f n whole failure effect) := by
  unfold State.rangeRequest
  split
  next => exact (AnswersStand.refl s).answer p _ _
  next =>
    split
    next => exact (AnswersStand.refl s).answer p _ _
    next =>
      split
      next => exact (AnswersStand.refl s).answer p _ _
      next => exact ((AnswersStand.refl s).foldl he _).answer p _ _

theorem State.claimPos_answersStand (p : Port) (a : AttrSet) (q : KeyPos) : AnswersStand s (State.claimPos p a s q) := by
  refine .of_ports (.refl s) ?_
  unfold State.claimPos
  split <;> simp

theorem State.clearPos_answersStand (q : KeyPos) : AnswersStand s (s.clearPos q) := by
  unfold State.clearPos
  split
  · exact .refl s
  · refine .rederive (.trans (.of_ports (.refl s) ?ports) (State.resetAskOn_answersStand _ q _)) q
    case ports => simp

theorem State.leavePos_answersStand (p : Port) (q : KeyPos) : AnswersStand s (State.leavePos p s q) := by
  unfold State.leavePos
  split
  · exact s.releasePos_answersStand false q
  · exact .refl s

theorem State.resetPos_answersStand (q : KeyPos) : AnswersStand s (s.resetPos q) := by
  unfold State.resetPos
  extract_lets b
  split
  next => exact .refl s
  next =>
    split
    · refine .of_ports (.refl s) ?_
      split <;> rfl
    · exact .trans (.of_ports (.refl s) (by simp)) (State.resetAskOn_answersStand _ q _)

theorem State.emptyQueue_answersStand (p : Port) : AnswersStand s (s.emptyQueue p) := by
  refine .of_ports (t := s.setPort p s.ports[p].emptied) (.setPort (.refl s) fun _ h => h) ?_
  simp [State.emptyQueue]

theorem State.overTable_answersStand {effect : State → KeyPos → State} (he : ∀ t q, AnswersStand t (effect t q)) :
    AnswersStand s (s.overTable effect) := by
  unfold State.overTable
  exact .foldl he _ (.refl s)

theorem State.resetRecords_answersStand : AnswersStand s s.resetRecords := by
  intro p a ha
  simpa [State.resetRecords, PortUnit.deskReset] using ha

theorem State.resetLamps_answersStand : AnswersStand s s.resetLamps := by
  intro p a ha
  simpa [State.resetLamps] using ha

theorem State.deskReset_answersStand : AnswersStand s s.deskReset := by
  unfold State.deskReset
  extract_lets s1 s2
  have records : AnswersStand s s1 :=
    ((s.overTable_answersStand State.resetPos_answersStand).trans (State.resetRecords_answersStand _)).trans
      (State.resetLamps_answersStand _)
  have sessions : AnswersStand s s2 := .foldl (fun t n => .of_ports (.refl t) (by simp)) _ records
  exact .foldl State.emptyQueue_answersStand _ sessions

theorem State.cancelAsk_answersStand (p : Port) : AnswersStand s (s.cancelAsk p) := by
  unfold State.cancelAsk
  split
  · split
    · exact .refl s
    · exact s.closeAsk_answersStand _ _ _ _ _
  · exact .refl s

theorem State.clockByte_answersStand (p : Port) (x : Transaction) (r : Reading) (b : Byte) :
    AnswersStand s (s.clockByte p x r b) :=
  .setPort (.refl s) fun _ h => h

theorem State.takeKind_answersStand (p : Port) (x : Transaction) (r : Reading) :
    AnswersStand s (s.setPort p (s.ports[p].takeKind x r)) :=
  .setPort (.refl s) fun _ h => h

theorem State.grantIfHeldBy_answersStand (p : Port) (i : AskId) : AnswersStand s (s.grantIfHeldBy p i) := by
  unfold State.grantIfHeldBy
  split
  · exact .refl s
  · split
    · exact s.grant_answersStand _ _ _ _ _
    · exact .refl s

theorem State.takeAsk_answersStand (p : Port) (w : Half) (raw : RawAttrs) : AnswersStand s (s.takeAsk p w raw) := by
  unfold State.takeAsk
  split
  next => exact (AnswersStand.refl s).answer p _ _
  next => exact .answerGranted (.of_ports (.refl s) (by simp)) p _
  next => exact s.grant_answersStand _ _ _ _ _
  next => exact .of_ports (.refl s) (by simp)

theorem State.takeReply_answersStand (p : Port) (id decision : Byte) :
    AnswersStand s (s.takeReply p id decision) := by
  unfold State.takeReply
  split
  next => exact (AnswersStand.refl s).answer p _ _
  next =>
    split
    next => exact (AnswersStand.refl s).answer p _ _
    next =>
      split
      next => exact (s.grant_answersStand _ _ _ _ _).answer p _ _
      next => exact (s.endAsk_answersStand _ _ _).answer p _ _

theorem State.setGroup_answersStand (g : GroupId) (x : Option SelGroup) : AnswersStand s (s.setGroup g x) :=
  .of_ports (.refl s) rfl

theorem State.takeOpenGroup_answersStand (p : Port) (group mode : Byte) :
    AnswersStand s (s.takeOpenGroup p group mode) := by
  unfold State.takeOpenGroup
  split
  next g m _ _ =>
    split
    next => exact (s.setGroup_answersStand g _).answer p _ _
    next =>
      split
      next => exact (s.setGroup_answersStand g _).answer p _ _
      next => exact (AnswersStand.refl s).answer p _ _
  next => exact (AnswersStand.refl s).answer p _ _

theorem State.withOwnGroup_answersStand (p : Port) (group : Byte) {act : GroupId → SelGroup → State}
    (h : ∀ g x, AnswersStand s (act g x)) : AnswersStand s (s.withOwnGroup p group act) := by
  unfold State.withOwnGroup
  split
  next => exact (AnswersStand.refl s).answer p _ _
  next =>
    split
    next => exact (AnswersStand.refl s).answer p _ _
    next =>
      split
      next => exact h _ _
      next => exact (AnswersStand.refl s).answer p _ _

theorem State.writePort_answersStand (p : Port) (m : LineMode) (lapse : Byte) :
    AnswersStand s (s.writePort p m lapse) := by
  refine .of_ports (t := s.setPort p { s.ports[p] with lineMode := m, lapseTime := lapse })
    (.setPort (.refl s) fun _ h => h) ?_
  unfold State.writePort
  split <;> simp

theorem State.settleLinks_answersStand : AnswersStand s s.settleLinks := by
  unfold State.settleLinks
  split
  · exact (AnswersStand.refl s).answer 0 .ok []
  · exact .refl s

/-- A SUBMIT at an ANSWERED port is discarded (R177). -/
theorem PortUnit.submitted_answered {x : PortUnit} {a : Answer} (h : x.state = .answered a) (p : Port)
    (bytes : List Byte) : (x.submitted p bytes).state = .answered a := by
  simp only [PortUnit.submitted, h]

end

/-! ## The commands -/

/-- Every answer that a port holds in `s` stands in the state the outcome leads to. -/
def LeavesAnswers (s : State) (o : Out) : Prop :=
  ∀ t, o = .next t → AnswersStand s t

theorem LeavesAnswers.next {s t : State} (h : AnswersStand s t) : LeavesAnswers s (.next t) :=
  fun _ e => Host.Outcome.next.inj e ▸ h

theorem LeavesAnswers.of_ports {s t : State} (e : t.ports = s.ports) : LeavesAnswers s (.next t) :=
  .next ((AnswersStand.refl s).of_ports e)

section
variable (p : Port) (s : State)

/-! ### Requests of the binding controller -/

theorem execClaim_leavesAnswers : LeavesAnswers s (execClaim p s) := by
  refine .next ?_
  split
  next =>
    split
    next => exact s.rangeRequest_answersStand p _ _ _ _ fun t _ => .refl t
    next => exact s.rangeRequest_answersStand p _ _ _ _ fun t q => t.claimPos_answersStand p _ q
  next => exact .refl s

theorem execRelease_leavesAnswers : LeavesAnswers s (execRelease p s) := by
  refine .next ?_
  split
  next => exact s.rangeRequest_answersStand p _ _ _ _ fun t q => t.releasePos_answersStand true q
  next => exact .refl s

theorem State.setHold_answersStand (h : Hold) (q : KeyPos) : AnswersStand s (s.setHold h q) :=
  .of_ports (.refl s) (by simp)

theorem execPin_leavesAnswers : LeavesAnswers s (execPin p s) := by
  refine .next ?_
  split
  next =>
    exact s.rangeRequest_answersStand p _ _ _ _ fun t q =>
      (t.setHold_answersStand .pinned q).trans (State.endAskOn_answersStand _ q .refused)
  next => exact .refl s

theorem execUnpin_leavesAnswers : LeavesAnswers s (execUnpin p s) := by
  refine .next ?_
  split
  next => exact s.rangeRequest_answersStand p _ _ _ _ fun t q => t.setHold_answersStand .opened q
  next => exact .refl s

theorem execFix_leavesAnswers : LeavesAnswers s (execFix s) := by
  refine .next ?_
  split
  next =>
    exact s.rangeRequest_answersStand 0 _ _ _ _ fun t q =>
      (t.setHold_answersStand .fixed q).trans (State.endAskOn_answersStand _ q .fixed)
  next => exact .refl s

theorem execLamp_leavesAnswers : LeavesAnswers s (execLamp p s) := by
  refine .next ?_
  split
  next =>
    split
    next => exact s.rangeRequest_answersStand p _ _ _ _ fun t _ => .refl t
    next =>
      exact s.rangeRequest_answersStand p _ _ _ _ fun t _ => .of_ports (.refl t) (by simp [State.setLampValue])
  next => exact .refl s

theorem State.freeGroups_answersStand : AnswersStand s s.freeGroups :=
  .of_ports (.refl s) (by simp)

theorem execClearTable_leavesAnswers : LeavesAnswers s (execClearTable s) := by
  refine .next ?_
  split
  next =>
    have bindings := s.overTable_answersStand State.clearPos_answersStand
    exact (bindings.trans (State.freeGroups_answersStand _)).answer 0 _ _
  next => exact .refl s

/-- What LEAVE does once the bindings of the host are gone (R37, R123). -/
theorem State.leftDesk_answersStand :
    AnswersStand s (((s.freeGroupsOf p).setPresence p .present).emptyQueue p) :=
  .trans (.of_ports (.refl s) (by simp)) (State.emptyQueue_answersStand _ p)

theorem execLeave_leavesAnswers : LeavesAnswers s (execLeave p s) := by
  refine .next ?_
  split
  next =>
    have bindings := s.overTable_answersStand (effect := State.leavePos p) fun t q => t.leavePos_answersStand p q
    exact (bindings.trans (State.leftDesk_answersStand p _)).answer p _ _
  next => exact .refl s

theorem execReadBinding_leavesAnswers : LeavesAnswers s (execReadBinding p s) := by
  refine .next ?_
  split
  next => split <;> exact (AnswersStand.refl s).answer p _ _
  next => exact .refl s

/-! ### Requests and deadlines of the yield unit -/

theorem execYieldAsk_leavesAnswers : LeavesAnswers s (execYieldAsk p s) := by
  refine .next ?_
  split
  next =>
    split
    · exact .refl s
    · exact s.takeAsk_answersStand p _ _
  next => exact .refl s

theorem execYieldReply_leavesAnswers : LeavesAnswers s (execYieldReply p s) := by
  refine .next ?_
  split
  next => exact s.takeReply_answersStand p _ _
  next => exact .refl s

theorem execAskDeadline_leavesAnswers (id : AskId) : LeavesAnswers s (execAskDeadline id s) := by
  refine .next ?_
  split
  next => exact .refl s
  next =>
    split
    · exact s.closeAsk_answersStand _ _ _ _ _
    · exact .refl s

theorem execHostLapse_leavesAnswers : LeavesAnswers s (execHostLapse p s) := by
  refine .next ?_
  split
  next =>
    refine .foldl (fun t i => t.grantIfHeldBy_answersStand p i) _ (.of_ports (.setPort (k := p) (.refl s) ?_) rfl)
    exact fun _ h => h
  next => exact .refl s

/-! ### Requests of the group unit, the repeat timer, the desk and the read requests -/

theorem execOpenGroup_leavesAnswers : LeavesAnswers s (execOpenGroup p s) := by
  refine .next ?_
  split
  next => exact s.takeOpenGroup_answersStand p _ _
  next => exact .refl s

theorem execCloseGroup_leavesAnswers : LeavesAnswers s (execCloseGroup p s) := by
  refine .next ?_
  split
  next =>
    refine s.withOwnGroup_answersStand p _ fun g x => ?_
    split
    · exact (AnswersStand.refl s).answer p _ _
    · exact (s.setGroup_answersStand g none).answer p _ _
  next => exact .refl s

theorem execClearSelection_leavesAnswers : LeavesAnswers s (execClearSelection p s) := by
  refine .next ?_
  split
  next =>
    exact s.withOwnGroup_answersStand p _ fun g x => .answer (.of_ports (t := s) (.refl s) (by simp)) p _ _
  next => exact .refl s

theorem execReadGroup_leavesAnswers : LeavesAnswers s (execReadGroup p s) := by
  refine .next ?_
  split
  next => split <;> exact (AnswersStand.refl s).answer p _ _
  next => exact .refl s

theorem execSetProfile_leavesAnswers : LeavesAnswers s (execSetProfile s) :=
  fun _ h _ _ ha => setProfile_keeps_answered ha h

theorem execReadProfile_leavesAnswers : LeavesAnswers s (execReadProfile p s) := by
  refine .next ?_
  split
  next => split <;> exact (AnswersStand.refl s).answer p _ _
  next => exact .refl s

theorem execSetPort_leavesAnswers : LeavesAnswers s (execSetPort p s) := by
  refine .next ?_
  split
  next =>
    split
    next => exact (AnswersStand.refl s).answer p _ _
    next =>
      split
      · exact (AnswersStand.refl s).answer p _ _
      · exact (s.writePort_answersStand p _ _).answer p _ _
  next => exact .refl s

theorem execReadHeld_leavesAnswers : LeavesAnswers s (execReadHeld p s) := by
  refine .next ?_
  split
  next => exact (AnswersStand.refl s).answer p _ _
  next => exact .refl s

theorem execReadPanel_leavesAnswers : LeavesAnswers s (execReadPanel p s) := by
  refine .next ?_
  split
  next => split <;> exact (AnswersStand.refl s).answer p _ _
  next => exact .refl s

theorem execSetLinks_leavesAnswers : LeavesAnswers s (execSetLinks s) := by
  refine .next ?_
  split
  next =>
    split
    next =>
      split
      · exact .trans (.of_ports (.refl s) (by simp)) (State.settleLinks_answersStand _)
      · exact (AnswersStand.refl s).answer 0 _ _
    next => exact .refl s
  next => exact .refl s

theorem execReadDesk_leavesAnswers : LeavesAnswers s (execReadDesk p s) := by
  refine .next ?_
  split
  next => exact (AnswersStand.refl s).answer p _ _
  next => exact .refl s

theorem execDeskReset_leavesAnswers : LeavesAnswers s (execDeskReset s) := by
  refine .next ?_
  split
  next => exact s.deskReset_answersStand.answer 0 _ _
  next => exact .refl s

/-! ### Transactions (R171 to R181) -/

theorem execChipSelectFall_leavesAnswers : LeavesAnswers s (execChipSelectFall p s) := by
  refine .next ?_
  split
  next => exact .refl s
  next =>
    split
    · exact .setPort (.refl s) fun _ h => h
    · refine .of_ports (.setPort (k := p) (.refl s) ?_) rfl
      exact fun _ h => h

theorem execChipSelectRise_leavesAnswers : LeavesAnswers s (execChipSelectRise p s) :=
  .next (.setPort (.refl s) fun _ h => h)

theorem execStatus_leavesAnswers (kindByte : Byte) : LeavesAnswers s (execStatus p kindByte s) := by
  refine .next ?_
  split
  next => exact .refl s
  next x _ =>
    split
    case h_1 =>
      split
      · exact .refl s
      · exact s.takeKind_answersStand p x _
    case h_2 => exact s.clockByte_answersStand p x _ _
    all_goals exact .refl s

theorem execFetch_leavesAnswers : LeavesAnswers s (execFetch p s) := by
  refine .next ?_
  split
  next => exact .refl s
  next x _ =>
    split
    case h_1 => exact s.takeKind_answersStand p x _
    case h_2 => exact s.clockByte_answersStand p x _ _
    case h_3 =>
      split
      · exact .refl s
      · exact s.clockByte_answersStand p x _ _
    case h_4 => exact s.clockByte_answersStand p x _ _
    all_goals exact .refl s

theorem execNotices_leavesAnswers : LeavesAnswers s (execNotices p s) := by
  refine .next ?_
  split
  next => exact .refl s
  next x _ =>
    split
    case h_1 => exact s.takeKind_answersStand p x _
    case h_2 =>
      split
      · exact s.clockByte_answersStand p x _ _
      · exact .refl s
    all_goals exact .refl s

theorem State.driveNote_answersStand : AnswersStand s (s.driveNote p) :=
  .of_ports (.refl s) (by simp)

theorem execNoticeRemoval_leavesAnswers : LeavesAnswers s (execNoticeRemoval p s) := by
  refine .next ?_
  split
  next => exact .refl s
  next x _ =>
    split
    case h_1 =>
      split
      case h_3 n q _ _ =>
        refine .trans (.setPort (k := p) (.of_ports (.refl s) rfl) ?_) (State.driveNote_answersStand p _)
        exact fun _ h => h
      all_goals exact .refl s
    all_goals exact .refl s

theorem execCancel_leavesAnswers : LeavesAnswers s (execCancel p s) := by
  refine .next ?_
  split
  next => exact .refl s
  next x _ =>
    split
    case h_1 => exact (s.takeKind_answersStand p x _).trans (State.cancelAsk_answersStand _ p)
    case h_2 => exact s.clockByte_answersStand p x _ _
    all_goals exact .refl s

theorem execSubmit_leavesAnswers (bytes : List Byte) : LeavesAnswers s (execSubmit p bytes s) := by
  refine .next ?_
  split
  next => exact .refl s
  next x _ =>
    split
    case h_1 =>
      exact .setPort (.refl s) fun a h =>
        PortUnit.submitted_answered (x := (s.ports[p].takeKind x .unread).risen s.deskTime) h p bytes
    all_goals exact .refl s

/-- The consumption of the answer of one port leaves the other ports as they are (R180). -/
theorem execAnswerConsumed_other {k : Port} (h : k ≠ p) {t : State} (ht : execAnswerConsumed k s = .next t) :
    t.ports[p] = s.ports[p] := by
  obtain rfl := Host.Outcome.next.inj ht
  split
  next => rfl
  next =>
    split
    case h_1 => exact upd_ne _ _ _ _ h
    all_goals rfl

/-! ### Events of the links, the lamps, the keys and the time base -/

theorem execLinkEnable_leavesAnswers (n : LinkId) : LeavesAnswers s (execLinkEnable n s) := by
  refine .next ?_
  split
  · refine .trans (.of_ports (.refl s) ?ports) (State.settleLinks_answersStand _)
    case ports => split <;> simp
  · exact .refl s

theorem execLinkDisable_leavesAnswers (n : LinkId) : LeavesAnswers s (execLinkDisable n s) := by
  refine .next ?_
  split
  · exact .trans (.of_ports (.refl s) (by simp)) (State.settleLinks_answersStand _)
  · exact .refl s

theorem execProbeTimer_leavesAnswers (n : LinkId) : LeavesAnswers s (execProbeTimer n s) := by
  refine .of_ports ?_
  split
  case h_1 => split <;> simp
  all_goals rfl

theorem execHoldoffTimer_leavesAnswers (n : LinkId) : LeavesAnswers s (execHoldoffTimer n s) := by
  refine .of_ports ?_
  split
  case h_1 => split <;> simp
  all_goals rfl

theorem execPoll_leavesAnswers (n : LinkId) : LeavesAnswers s (execPoll n s) := by
  refine .of_ports ?_
  split
  case h_1 => split <;> simp
  all_goals rfl

theorem execLampAcceptance_leavesAnswers (n : LinkId) : LeavesAnswers s (execLampAcceptance n s) := by
  refine .of_ports ?_
  split
  next => rfl
  next => split <;> simp

/-- An exchange that ends on a link, whatever its reply. -/
theorem State.endExchange_leavesAnswers (n : LinkId) (r : Reply) : LeavesAnswers s (.next (s.endExchange n r)) :=
  .of_ports (by simp)

theorem execExchangeFailed_leavesAnswers (n : LinkId) (why : FailKind) :
    LeavesAnswers s (execExchangeFailed n why s) :=
  .of_ports (by simp)

theorem State.takeEdge_leavesAnswers (press : Bool) (q : KeyPos) {act : State → State}
    (h : ∀ t, (act t).ports = t.ports) : LeavesAnswers s (.next (s.takeEdge press q act)) := by
  refine .of_ports ?_
  unfold State.takeEdge
  split
  next => rfl
  next =>
    split
    · split <;> simp [h]
    · rfl

theorem execRepeatDue_leavesAnswers (q : KeyPos) : LeavesAnswers s (execRepeatDue q s) := by
  refine .of_ports ?_
  split
  next => rfl
  next =>
    split
    next => rfl
    next => split <;> simp
    next => split <;> simp

theorem execDeskTick_leavesAnswers : LeavesAnswers s (execDeskTick s) := by
  refine .of_ports ?_
  split <;> rfl

end

/-- No command but the consumption of an answer and power-on takes an answer from a port. -/
theorem exec_leavesAnswers (s : State) {c : Instr} (consumed : ∀ k, c ≠ .answerConsumed k) (on : c ≠ .powerOn) :
    LeavesAnswers s (exec c s) := by
  cases c with
  | powerOn => exact absurd rfl on
  | answerConsumed k => exact absurd rfl (consumed k)
  | deskTick => exact execDeskTick_leavesAnswers s
  | chipSelectFall p => exact execChipSelectFall_leavesAnswers p s
  | status p kindByte => exact execStatus_leavesAnswers p s kindByte
  | fetch p => exact execFetch_leavesAnswers p s
  | notices p => exact execNotices_leavesAnswers p s
  | noticeRemoval p => exact execNoticeRemoval_leavesAnswers p s
  | cancel p => exact execCancel_leavesAnswers p s
  | chipSelectRise p => exact execChipSelectRise_leavesAnswers p s
  | submit p bytes => exact execSubmit_leavesAnswers p s bytes
  | claim p => exact execClaim_leavesAnswers p s
  | release p => exact execRelease_leavesAnswers p s
  | pin p => exact execPin_leavesAnswers p s
  | unpin p => exact execUnpin_leavesAnswers p s
  | fix => exact execFix_leavesAnswers s
  | lamp p => exact execLamp_leavesAnswers p s
  | clearTable => exact execClearTable_leavesAnswers s
  | leave p => exact execLeave_leavesAnswers p s
  | readBinding p => exact execReadBinding_leavesAnswers p s
  | yieldAsk p => exact execYieldAsk_leavesAnswers p s
  | yieldReply p => exact execYieldReply_leavesAnswers p s
  | askDeadline id => exact execAskDeadline_leavesAnswers s id
  | hostLapse p => exact execHostLapse_leavesAnswers p s
  | openGroup p => exact execOpenGroup_leavesAnswers p s
  | closeGroup p => exact execCloseGroup_leavesAnswers p s
  | clearSelection p => exact execClearSelection_leavesAnswers p s
  | readGroup p => exact execReadGroup_leavesAnswers p s
  | setProfile => exact execSetProfile_leavesAnswers s
  | readProfile p => exact execReadProfile_leavesAnswers p s
  | setPort p => exact execSetPort_leavesAnswers p s
  | readHeld p => exact execReadHeld_leavesAnswers p s
  | readPanel p => exact execReadPanel_leavesAnswers p s
  | setLinks => exact execSetLinks_leavesAnswers s
  | readDesk p => exact execReadDesk_leavesAnswers p s
  | deskReset => exact execDeskReset_leavesAnswers s
  | linkEnable n => exact execLinkEnable_leavesAnswers s n
  | linkDisable n => exact execLinkDisable_leavesAnswers s n
  | probeTimer n => exact execProbeTimer_leavesAnswers s n
  | holdoffTimer n => exact execHoldoffTimer_leavesAnswers s n
  | poll n => exact execPoll_leavesAnswers s n
  | ident n panelType keyCount => exact s.endExchange_leavesAnswers n _
  | imageReply n keys => exact s.endExchange_leavesAnswers n _
  | edge n bitS press key => exact s.endExchange_leavesAnswers n _
  | nothing n => exact s.endExchange_leavesAnswers n _
  | lost n => exact s.endExchange_leavesAnswers n _
  | accept n => exact s.endExchange_leavesAnswers n _
  | again n => exact s.endExchange_leavesAnswers n _
  | exchangeFailed n why => exact execExchangeFailed_leavesAnswers s n why
  | lampAcceptance n => exact execLampAcceptance_leavesAnswers s n
  | pressEdge q => exact s.takeEdge_leavesAnswers true q fun t => by simp
  | releaseEdge q => exact s.takeEdge_leavesAnswers false q fun t => by simp
  | repeatDue q => exact execRepeatDue_leavesAnswers s q

/-- The answer of port `p` goes with its own consumption and with power-on alone (R177, R178, R180). -/
theorem exec_keeps_answered {s t : State} {c : Instr} {p : Port} {a : Answer} (ha : s.ports[p].state = .answered a)
    (own : c ≠ .answerConsumed p) (on : c ≠ .powerOn) (h : exec c s = .next t) : t.ports[p].state = .answered a := by
  by_cases consumed : ∃ k, c = .answerConsumed k
  · obtain ⟨k, rfl⟩ := consumed
    have other : k ≠ p := fun e => own (congrArg Instr.answerConsumed e)
    rw [execAnswerConsumed_other p s other h, ha]
  · exact exec_leavesAnswers s (fun k e => consumed ⟨k, e⟩) on t h p a ha

/-! ## READ GROUP (R101) -/

/-- The two bytes of a position. -/
theorem bytes2_position (q : KeyPos) :
    bytes2 (BitVec.ofNat 16 q.1) = [BitVec.ofNat 8 (q.1 / 256), BitVec.ofNat 8 q.1] := by
  have hq := q.2
  simp only [bytes2, List.cons.injEq, and_true]
  constructor <;> apply BitVec.eq_of_toNat_eq <;>
    simp only [BitVec.extractLsb'_toNat, BitVec.toNat_ofNat, Nat.shiftRight_eq_div_pow] <;> omega

/-- The layout of an OPEN group without a selected position (R192). -/
theorem groupBytes_unselected (owner : Port) (mode : GroupMode) (count : Nat) :
    groupBytes (some ⟨owner, mode, none, count⟩) = [1, byte owner.1, byte mode.number, 0xFF, 0xFF, byte count] :=
  rfl

/-- The layout of an OPEN group with selected position `q` (R192). -/
theorem groupBytes_selected (owner : Port) (mode : GroupMode) (q : KeyPos) (count : Nat) :
    groupBytes (some ⟨owner, mode, some q, count⟩) =
      [1, byte owner.1, byte mode.number, BitVec.ofNat 8 (q.1 / 256), BitVec.ofNat 8 q.1, byte count] := by
  simp only [groupBytes, bytes2_position]
  rfl

section
variable {s : State} {p : Port} {g : Byte}

theorem readGroup_of_no_group (hw : WorkingOn s p (.readGroup g)) (hg : 31 < g.toNat) :
    OnlyAnswers (.readGroup p) s p .badAttr 0x33 [] := by
  refine onlyAnswers_of hw rfl ?_
  show execReadGroup p s = _
  simp only [execReadGroup, State.requestOf_working hw, index_none hg]

theorem readGroup_of_group {i : GroupId} (hw : WorkingOn s p (.readGroup g)) (hi : g.toNat = i.1) :
    OnlyAnswers (.readGroup p) s p .ok 0x33 (groupBytes s.groups[i]) := by
  refine onlyAnswers_of hw rfl ?_
  show execReadGroup p s = _
  simp only [execReadGroup, State.requestOf_working hw, index_eq hi]

theorem readGroup_answers (hw : WorkingOn s p (.readGroup g)) {t : State} (h : exec (.readGroup p) s = .next t) :
    ∃ a, t.ports[p].state = .answered a := by
  by_cases hg : g.toNat < 32
  · exact ⟨_, (readGroup_of_group (i := ⟨g.toNat, hg⟩) hw rfl).state h⟩
  · exact ⟨_, (readGroup_of_no_group hw (by omega)).state h⟩

end

/-- Settles O42: the two answers from the one test of the group unit, the group number; then the port is ANSWERED, and
every command but two leaves an ANSWERED port as it is. -/
theorem readGroupAnswers : Obligations.ReadGroupAnswers := by
  refine fun s p g hw => ⟨readGroup_of_no_group hw, fun i hi => ⟨fun free => ?free, fun x opened => ?opened⟩,
    fun c t u ht own on hu => ?stands⟩
  case free =>
    have answer := readGroup_of_group hw hi
    rwa [free] at answer
  case opened =>
    have answer := readGroup_of_group hw hi
    obtain ⟨owner, mode, selected, count⟩ := x
    rw [opened] at answer
    cases selected with
    | none =>
      rw [groupBytes_unselected] at answer
      cases mode <;> exact answer
    | some q =>
      rw [groupBytes_selected] at answer
      cases mode <;> exact answer
  case stands =>
    obtain ⟨a, ha⟩ := readGroup_answers hw ht
    rw [exec_keeps_answered ha own on hu, ha]

end Sys2Proof.Machine
end

section
/-! PROOF. Steps, answers that stand, and the bounds of a transaction: chip select, STATUS, FETCH (R57, R60, R171 to R180). -/

namespace Sys2Proof.Machine

/-! ## Steps -/

/-- Settles O1: the two cases of a step. -/
theorem frontCommandRuns : Obligations.FrontCommandRuns := by
  refine ⟨fun s c rest h => ?_, fun s h => ?_⟩ <;> simp only [step, h]

/-- Settles O13: an answer goes with its own consumption and with power-on alone. -/
theorem answerStands : Obligations.AnswerStands :=
  fun _ _ _ _ _ ha own on h => exec_keeps_answered ha own on h

/-! ## Chip select (R57, R60, R171, R185, R188) -/

/-- Which data outputs are driven, after one port unit is replaced. -/
theorem sdoDriven_of_ports {s t : State} {p : Port} {u : PortUnit} (hp : t.ports = upd s.ports p u)
    (hr : t.resetLow = s.resetLow) (k : Port) :
    t.sdoDriven k = if p = k then u.csLow && !s.resetLow else s.sdoDriven k := by
  simp only [State.sdoDriven, hp, hr]
  by_cases e : p = k
  · subst e
    rw [upd_self, if_pos rfl]
  · rw [upd_ne _ _ _ _ e, if_neg e]

/-- What a transaction clocked out whole is its status byte and what followed, or nothing before its kind byte. -/
theorem clockedOut_eq (x : Transaction) :
    x.clockedOut = if x.reading = .unread then [] else x.statusByte :: x.out := by
  unfold Transaction.clockedOut
  split <;> simp_all

section
variable {s : State} {p : Port}

theorem exec_chipSelectFall_begins (hcs : s.ports[p].csLow = false) (hr : s.resetLow = false) :
    exec (.chipSelectFall p) s = .next ((s.setPort p { s.ports[p] with
      csLow := true, lapseStart := none, txn := some (s.newTransaction p) }).setPresence p .present) := by
  show execChipSelectFall p s = _
  simp only [execChipSelectFall, hcs, hr, Bool.false_eq_true, if_false]

theorem exec_chipSelectFall_inHold (hcs : s.ports[p].csLow = false) (hr : s.resetLow = true) :
    exec (.chipSelectFall p) s = .next (s.setPort p { s.ports[p] with csLow := true }) := by
  show execChipSelectFall p s = _
  simp only [execChipSelectFall, hcs, hr, Bool.false_eq_true, if_false, if_true]

theorem exec_chipSelectFall_low (hcs : s.ports[p].csLow = true) : ChangesNothing (.chipSelectFall p) s := by
  show execChipSelectFall p s = _
  simp only [execChipSelectFall, hcs, if_true]

theorem exec_chipSelectRise (s : State) (p : Port) :
    exec (.chipSelectRise p) s = .next (s.setPort p (s.ports[p].risen s.deskTime)) :=
  rfl

theorem risen_of_txn {u : PortUnit} {x : Transaction} (h : u.txn = some x) (now : Time) :
    u.risen now = { u with
      csLow := false, lapseStart := some now, txn := none
      lastOut := if x.reading = .unread then [] else x.statusByte :: x.out } := by
  simp [PortUnit.risen, h, clockedOut_eq]

theorem risen_of_no_txn {u : PortUnit} (h : u.txn = none) (now : Time) : u.risen now = { u with csLow := false } := by
  obtain ⟨state, refused, lapseFlag, lineMode, lapseTime, lapseStart, csLow, txn, lastOut⟩ := u
  subst h
  rfl

end

/-- Settles O15: the fall and the rise by the level of the pin and the transaction in progress. -/
theorem chipSelectBoundsTransactions : Obligations.ChipSelectBoundsTransactions := by
  refine fun s p => ⟨fun hcs hr => ?begins, fun hcs hr => ?inHold, exec_chipSelectFall_low, fun x hx => ?ends,
    fun hx => ?noTransaction⟩
  case begins =>
    refine ⟨_, exec_chipSelectFall_begins hcs hr, rfl, rfl, fun k => ?_, fun x hx => ?_⟩
    · rw [sdoDriven_of_ports (t := (s.setPort p _).setPresence p _) (State.setPort_ports s p _) rfl k]
      by_cases e : p = k
      · simp [e, hr]
      · simp [e, Ne.symm e]
    · cases x
      case presence | ports => exact absurd (by simp) hx
      all_goals rfl
  case inHold =>
    refine ⟨_, exec_chipSelectFall_inHold hcs hr, rfl, fun k => ?_, onlyChanges_setPort _ _ _⟩
    simp [State.sdoDriven, hr]
  case ends =>
    refine ⟨_, exec_chipSelectRise s p, by rw [State.setPort_ports, risen_of_txn hx], fun k => ?_,
      onlyChanges_setPort _ _ _⟩
    rw [sdoDriven_of_ports (State.setPort_ports s p _) rfl k, risen_of_txn hx]
    by_cases e : p = k
    · simp [e]
    · simp [e, Ne.symm e]
  case noTransaction =>
    exact ⟨_, exec_chipSelectRise s p, by rw [State.setPort_ports, risen_of_no_txn hx], onlyChanges_setPort _ _ _⟩

end Sys2Proof.Machine
end

section
/-! PROOF. Status bytes, the transactions that clock bytes out, CANCEL and SUBMIT (R116 to R118, R172 to R181). -/

namespace Sys2Proof.Machine

/-! ## Frames and offers from one state to the next -/

theorem Part.Same.trans {s t u : State} {x : Part} (h : x.Same s t) (k : x.Same t u) : x.Same s u := by
  cases x <;> exact Eq.trans k h

/-- What two commands in turn change is what either changes. -/
theorem OnlyChanges.trans {s t u : State} {l m : List Part} (h : OnlyChanges s t l) (k : OnlyChanges t u m)
    (n : List Part) (hl : ∀ x ∈ l, x ∈ n) (hm : ∀ x ∈ m, x ∈ n) : OnlyChanges s u n :=
  fun x hx => (h x fun e => hx (hl x e)).trans (k x fun e => hx (hm x e))

/-- What is offered from a state is offered from another with the same queues, NOTE lines, desk time and line mode. -/
theorem Offered.of_same {s s' t : State} {h : Port} {l : List Report} (a : Offered s t h l)
    (queues : s'.queues = s.queues) (lines : s'.noteLow = s.noteLow) (time : s'.deskTime = s.deskTime)
    (mode : s'.ports[h].lineMode = s.ports[h].lineMode) : Offered s' t h l := by
  obtain ⟨a1, a2⟩ := a
  exact ⟨by rw [a1, queues, time], by rw [a2, lines, mode]⟩

/-! ## Kind codes and the status byte (R172, R173, R189) -/

theorem kindOf_eq_status {b : Byte} (h : b ∉ [0xA5#8, 0x5A#8, 0x3C#8, 0xC3#8]) : kindOf b = .status := by
  have ne : b.toNat ≠ 0xA5 ∧ b.toNat ≠ 0x5A ∧ b.toNat ≠ 0x3C ∧ b.toNat ≠ 0xC3 := by
    simpa [BitVec.toNat_eq] using h
  unfold kindOf
  split <;> first | rfl | omega

theorem kindOf_eq_submit_iff (b : Byte) : kindOf b = .submit ↔ b = 0xA5#8 := by
  rw [BitVec.toNat_eq]
  unfold kindOf
  split <;> simp_all

theorem PortState.number_lt (x : PortState) : x.number < 3 := by
  cases x <;> simp [PortState.number]

/-- The fields of a status byte, one by one (R189). -/
theorem statusByte_fields : ∀ (n : Fin 3) (notice urgent refused lapsed super : Bool),
    let b : Byte := BitVec.ofNat 8
      (n.1 + 4 * notice.toNat + 8 * urgent.toNat + 16 * refused.toNat + 32 * lapsed.toNat + 64 * super.toNat)
    b.toNat % 4 = n.1 ∧ b.getLsbD 2 = notice ∧ b.getLsbD 3 = urgent ∧ b.getLsbD 4 = refused ∧ b.getLsbD 5 = lapsed ∧
      b.getLsbD 6 = super ∧ b.getLsbD 7 = false := by
  decide

theorem statusByteOf_fields (p : Port) (u : PortUnit) (l : List Notice) :
    (statusByteOf p u l).toNat % 4 = u.state.number ∧ (statusByteOf p u l).getLsbD 2 = noticeValue l ∧
    (statusByteOf p u l).getLsbD 3 = urgentValue l ∧ (statusByteOf p u l).getLsbD 4 = u.refused ∧
    (statusByteOf p u l).getLsbD 5 = u.lapseFlag ∧ (statusByteOf p u l).getLsbD 6 = decide (p = 0) ∧
    (statusByteOf p u l).getLsbD 7 = false :=
  statusByte_fields ⟨_, u.state.number_lt⟩ _ _ _ _ _

theorem NoticeKind.urgent_iff (k : NoticeKind) :
    k.urgent = true ↔ k ∈ [NoticeKind.withdrawn, .yieldAsked, .yielded, .panelDown, .overrun] := by
  cases k <;> decide

/-! ## Kind bytes and bytes clocked out (R172, R174) -/

section
variable {s : State} {p : Port} {x : Transaction}

/-- A command whose meaning is a new port unit. -/
theorem changes_port {c : Instr} {u : PortUnit} (h : exec c s = .next (s.setPort p u)) :
    ∃ t, exec c s = .next t ∧ t.ports = upd s.ports p u ∧ OnlyChanges s t [.ports] :=
  ⟨_, h, rfl, onlyChanges_setPort _ _ _⟩

theorem exec_status_kind (hx : s.ports[p].txn = some x) (hr : x.reading = .unread) {b : Byte}
    (hb : b ∉ [0xA5#8, 0x5A#8, 0x3C#8, 0xC3#8]) :
    exec (.status p b) s = .next (s.setPort p (s.ports[p].takeKind x .status)) := by
  have kind : otherKindByte b = false := by simp [otherKindByte, kindOf_eq_status hb]
  show execStatus p b s = _
  simp only [execStatus, hx, hr, kind, Bool.false_eq_true, if_false]

theorem exec_status_later (hx : s.ports[p].txn = some x) (hr : x.reading = .status) (b : Byte) :
    exec (.status p b) s = .next (s.clockByte p x .status 0) := by
  show execStatus p b s = _
  simp only [execStatus, hx, hr]

/-- One more byte of a transaction that goes on reading what it read. -/
theorem Transaction.clock_same {r : Reading} (hr : x.reading = r) (b : Byte) :
    x.clock r b = { x with out := x.out ++ [b] } := by
  subst hr
  rfl

theorem exec_fetch_kind (hx : s.ports[p].txn = some x) (hr : x.reading = .unread) :
    exec (.fetch p) s = .next (s.setPort p
      (s.ports[p].takeKind x (.fetch s.ports[p].state.fetched.1 s.ports[p].state.fetched.2))) := by
  show execFetch p s = _
  simp only [execFetch, hx, hr]

theorem exec_fetch_byte (hx : s.ports[p].txn = some x) {b : Byte} {rest : List Byte} {live : Bool}
    (hr : x.reading = .fetch (b :: rest) live) (hl : live = true → rest ≠ []) :
    exec (.fetch p) s = .next (s.clockByte p x (.fetch rest live) b) := by
  show execFetch p s = _
  cases rest with
  | cons c rest => simp only [execFetch, hx, hr]
  | nil =>
    have dead : live = false := by simpa using hl
    simp only [execFetch, hx, hr, dead, Bool.false_eq_true, if_false]

theorem exec_fetch_past (hx : s.ports[p].txn = some x) {live : Bool} (hr : x.reading = .fetch [] live) :
    exec (.fetch p) s = .next (s.clockByte p x (.fetch [] live) 0) := by
  show execFetch p s = _
  simp only [execFetch, hx, hr]

theorem exec_answerConsumed_live (hx : s.ports[p].txn = some x) {rest : List Byte}
    (hr : x.reading = .fetch rest true) :
    exec (.answerConsumed p) s = .next (s.setPort p { s.ports[p] with
      state := .idle, txn := some { x with reading := .fetch [] false, out := x.out ++ rest } }) := by
  show execAnswerConsumed p s = _
  simp only [execAnswerConsumed, hx, hr]

end

/-- Settles O16: the codes by their bytes, the bits from the fields of a status byte, STATUS by what is read. -/
theorem statusShowsThePort : Obligations.StatusShowsThePort := by
  refine ⟨fun p => ⟨rfl, rfl, rfl, rfl, fun b hb => ?spells, fun _ => rfl, rfl, fun b bytes hb => ?ends⟩,
    fun p u l => ?bits, fun s p b x hx => ⟨fun hr hb => ?kind, fun hr => ?later⟩⟩
  case spells => simp only [kindCommand, kindOf_eq_status hb]
  case ends => exact if_neg (mt (kindOf_eq_submit_iff b).mp hb)
  case bits =>
    obtain ⟨state, notice, urgent, refused, lapsed, super, top⟩ := statusByteOf_fields p u l
    refine ⟨fun h => by rw [state, h]; rfl, fun r h => by rw [state, h]; rfl, fun a h => by rw [state, h]; rfl, ?_, ?_,
      refused, lapsed, by rw [super, decide_eq_true_iff], top⟩
    · rw [notice]
      cases l <;> simp [noticeValue]
    · rw [urgent]
      simp only [urgentValue, List.any_eq_true, NoticeKind.urgent_iff]
  case kind => exact changes_port (exec_status_kind hx hr hb)
  case later =>
    have h := exec_status_later hx hr b
    rw [State.clockByte, Transaction.clock_same hr] at h
    exact changes_port h

/-- Settles O17: FETCH by what is left of what its kind byte fixed. -/
theorem fetchClocksTheAnswer : Obligations.FetchClocksTheAnswer := by
  refine fun s p x hx => ⟨fun hr => ?kind, fun b rest live hr hl => changes_port (exec_fetch_byte hx hr hl),
    fun live hr => ?past, fun rest hr => changes_port (exec_answerConsumed_live hx hr)⟩
  case kind =>
    refine ⟨_, exec_fetch_kind hx hr, ⟨_, _, rfl, fun a ha => ?_, fun r h => ?_, fun hi => ?_⟩,
      onlyChanges_setPort _ _ _⟩
    · rw [ha]
      exact ⟨rfl, rfl⟩
    · rw [h]
      exact ⟨rfl, rfl⟩
    · rw [hi]
      exact ⟨rfl, rfl⟩
  case past =>
    have h := exec_fetch_past hx hr
    rw [State.clockByte, Transaction.clock_same hr] at h
    exact changes_port h

/-! ## NOTICES (R116 to R118, R191) -/

/-- The two bytes of a number. -/
theorem bytes2_ofNat (n : Nat) : bytes2 (BitVec.ofNat 16 n) = [BitVec.ofNat 8 (n / 256), BitVec.ofNat 8 n] := by
  simp only [bytes2, List.cons.injEq, and_true]
  constructor <;> apply BitVec.eq_of_toNat_eq <;>
    simp only [BitVec.extractLsb'_toNat, BitVec.toNat_ofNat, Nat.shiftRight_eq_div_pow] <;> omega

/-- A byte is its number's remainder. -/
theorem ofNat8_mod (n : Nat) : BitVec.ofNat 8 (n % 256) = BitVec.ofNat 8 n := by
  apply BitVec.eq_of_toNat_eq
  simp

/-- The flags of a record above a position, as two bytes (R191, R192). -/
theorem bytes2_flags (k : Nat) (q : KeyPos) :
    bytes2 (BitVec.ofNat 16 (4096 * k + q.1)) =
      [BitVec.ofNat 8 (16 * k + q.1 / 256), BitVec.ofNat 8 (q.1 % 256)] := by
  have high : (4096 * k + q.1) / 256 = 16 * k + q.1 / 256 := by omega
  have low : (4096 * k + q.1) % 256 = q.1 % 256 := by omega
  rw [bytes2_ofNat, ← ofNat8_mod (4096 * k + q.1), high, low]

theorem Notice.bytes_length (n : Notice) : n.bytes.length = 10 :=
  rfl

section
variable {s : State} {p : Port} {x : Transaction}

theorem exec_notices_kind (hx : s.ports[p].txn = some x) (hr : x.reading = .unread) :
    exec (.notices p) s = .next (s.setPort p (s.ports[p].takeKind x (.notices false 0))) := by
  show execNotices p s = _
  simp only [execNotices, hx, hr]

theorem exec_notices_byte (hx : s.ports[p].txn = some x) {c : Bool} {k : Nat} (hr : x.reading = .notices c k)
    {r : Reading} {b : Byte} (hn : nextNoticeByte x s.queues[p] c k = some (r, b)) :
    exec (.notices p) s = .next (s.clockByte p x r b) := by
  show execNotices p s = _
  simp only [execNotices, hx, hr, hn]

theorem nextNoticeByte_entry {q : List Notice} {n : Notice} {k : Nat} (hq : q.head? = some n) (hl : 0 < x.left)
    (hk : k < 9) : nextNoticeByte x q true k = some (.notices true (k + 1), (n.bytes[k]?).getD 0) := by
  obtain ⟨m, hm⟩ := Nat.exists_eq_succ_of_ne_zero hl.ne'
  obtain ⟨rest, rfl⟩ : ∃ rest, q = n :: rest := by cases q <;> simp_all
  simp [nextNoticeByte, hm, hk]

theorem nextNoticeByte_done (q : List Notice) (k : Nat) (hl : x.left = 0) :
    nextNoticeByte x q true k = some (.notices true k, 0) := by
  simp [nextNoticeByte, hl]

theorem exec_noticeRemoval_head (hx : s.ports[p].txn = some x) {k m : Nat} (hr : x.reading = .notices true k)
    (hl : x.left = m + 1) {n : Notice} {rest : List Notice} (hq : s.queues[p] = n :: rest) :
    exec (.noticeRemoval p) s = .next (({ s with queues := upd s.queues p rest }.setPort p
      { s.ports[p] with
        txn := some { x with left := m, reading := .notices true 0, out := x.out ++ n.bytes.drop k } }).driveNote p) := by
  show execNoticeRemoval p s = _
  simp only [execNoticeRemoval, hx, hr, hl, hq, if_true, List.append_nil]

theorem exec_noticeRemoval_done (hx : s.ports[p].txn = some x) {k : Nat} (hr : x.reading = .notices true k)
    (hl : x.left = 0) : ChangesNothing (.noticeRemoval p) s := by
  show execNoticeRemoval p s = _
  simp only [execNoticeRemoval, hx, hr, hl]

end

/-- Settles O18: the ten bytes field by field, NOTICES by whether a counted entry is left. -/
theorem noticesReadOut : Obligations.NoticesReadOut := by
  refine ⟨fun n => ?bytes, rfl, fun s p x hx => ⟨fun hr => changes_port (exec_notices_kind hx hr), fun hr => ?count,
    fun k n rest hr hk hl hq => ?entry, fun k hr hl => ?done, fun k m n rest hr hl hq => ?removal,
    fun k hr hl => exec_noticeRemoval_done hx hr hl⟩⟩
  case bytes =>
    have word : 32768 * n.resync.toNat + 16384 * n.lost.toNat + n.pos.1 =
        4096 * (8 * n.resync.toNat + 4 * n.lost.toNat) + n.pos.1 := by omega
    have high : 128 * n.resync.toNat + 64 * n.lost.toNat + n.pos.1 / 256 =
        16 * (8 * n.resync.toNat + 4 * n.lost.toNat) + n.pos.1 / 256 := by omega
    unfold Notice.bytes
    rw [word, high, bytes2_flags]
    rfl
  case count => exact changes_port (exec_notices_byte hx hr (r := .notices true 0) (b := byte x.count) rfl)
  case entry =>
    have hk' : k < n.bytes.length := by rw [n.bytes_length]; omega
    have hb : n.bytes[k]? = some n.bytes[k] := List.getElem?_eq_getElem hk'
    have hn := nextNoticeByte_entry (x := x) (q := s.queues[p]) (by rw [hq]; rfl) hl hk
    rw [hb] at hn
    exact ⟨_, exec_notices_byte hx hr hn, ⟨_, hb, rfl⟩, onlyChanges_setPort _ _ _⟩
  case done =>
    have h := exec_notices_byte hx hr (nextNoticeByte_done _ k hl)
    rw [State.clockByte, Transaction.clock_same hr] at h
    exact changes_port h
  case removal =>
    refine ⟨_, exec_noticeRemoval_head hx hr hl hq, rfl, rfl, ?_, fun y hy => ?_⟩
    · simp [State.driveNote]
    · cases y
      case queues | ports | noteLow => exact absurd (by simp) hy
      all_goals rfl

/-! ## CANCEL (R51, R181) -/

section
variable {s : State} {p : Port} {x : Transaction}

theorem exec_cancel_kind (hx : s.ports[p].txn = some x) (hr : x.reading = .unread) :
    exec (.cancel p) s = .next ((s.setPort p (s.ports[p].takeKind x .cancel)).cancelAsk p) := by
  show execCancel p s = _
  simp only [execCancel, hx, hr]

theorem State.workingOnAsk_iff (s : State) (p : Port) :
    s.workingOnAsk p = true ↔ ∃ w raw, WorkingOn s p (.yieldAsk w raw) := by
  unfold State.workingOnAsk State.requestOf WorkingOn
  cases s.ports[p].state with
  | working r => cases r <;> simp
  | idle => simp
  | answered a => simp

theorem State.cancelAsk_of_ask {w : Half} {raw : RawAttrs} {i : AskId} {a : Ask} (hw : WorkingOn s p (.yieldAsk w raw))
    (hf : s.askOf p = some (i, a)) : s.cancelAsk p = s.closeAsk i a .cancelled .cancelled s.table[a.pos] := by
  have asks : s.workingOnAsk p = true := (s.workingOnAsk_iff p).mpr ⟨w, raw, hw⟩
  simp only [State.cancelAsk, asks, hf, if_true]

theorem State.cancelAsk_of_none (h : ∀ w raw, WorkingOn s p (.yieldAsk w raw) → s.askOf p = none) :
    s.cancelAsk p = s := by
  unfold State.cancelAsk
  split
  next asks =>
    obtain ⟨w, raw, hw⟩ := (s.workingOnAsk_iff p).mp asks
    rw [h w raw hw]
  next => rfl

/-- A port whose unit is replaced by one with the same state works on what it worked on. -/
theorem workingOn_setPort {u : PortUnit} (hu : u.state = s.ports[p].state) (k : Port) (r : Request) :
    WorkingOn (s.setPort p u) k r ↔ WorkingOn s k r := by
  unfold WorkingOn
  by_cases e : p = k
  · subst e
    rw [State.setPort_ports, upd_self, hu]
  · rw [State.setPort_ports, upd_ne _ _ _ _ e]

theorem lineMode_setPort {u : PortUnit} (hu : u.lineMode = s.ports[p].lineMode) (k : Port) :
    (s.setPort p u).ports[k].lineMode = s.ports[k].lineMode := by
  by_cases e : p = k
  · subst e
    rw [State.setPort_ports, upd_self, hu]
  · rw [State.setPort_ports, upd_ne _ _ _ _ e]

end

/-- Settles O19: the kind byte, then the end of the port's own ask where there is one. -/
theorem cancelEndsTheOwnAsk : Obligations.CancelEndsTheOwnAsk := by
  intro s p x hx hr
  have kind := exec_cancel_kind hx hr
  have working := fun k r => workingOn_setPort (s := s) (p := p) (u := s.ports[p].takeKind x .cancel) rfl k r
  refine ⟨fun w raw i a hw hi ha hu => ?own, fun h => ?other⟩
  case own =>
    have hw' := (working p _).mpr hw
    rw [State.cancelAsk_of_ask hw' (State.askOf_some hi ha hu)] at kind
    subst ha
    obtain ⟨asks, ports, offered, only⟩ := State.closeAsk_spec hw' i .cancelled .cancelled
    refine ⟨_, kind, asks, ?_, offered.of_same rfl rfl rfl ?_, ?_⟩
    · rw [ports, State.setPort_ports, upd_upd, upd_self]
      rfl
    · exact (lineMode_setPort (u := s.ports[a.asker].takeKind x .cancel) rfl _).symm
    · exact (onlyChanges_setPort s a.asker _).trans only _ (by simp) (by simp)
  case other =>
    rw [State.cancelAsk_of_none] at kind
    · exact changes_port kind
    · exact fun w raw hw => State.askOf_none (h w raw ((working p _).mp hw))

/-! ## SUBMIT (R176, R177) -/

/-- A code of no request requires no operands. -/
theorem operandLength_none {c : Byte} (h : ∀ r : Request, r.code ≠ c) : operandLength c = none := by
  have absent : ∀ r : Request, c.toNat = r.code.toNat → False := fun r e => h r (BitVec.eq_of_toNat_eq e.symm)
  unfold operandLength
  split
  case h_1 e => exact (absent (.claim 0 0 ⟨0, 0, 0, 0, 0, 0⟩) e).elim
  case h_2 e => exact (absent (.release 0 0) e).elim
  case h_3 e => exact (absent (.pin 0 0) e).elim
  case h_4 e => exact (absent (.unpin 0 0) e).elim
  case h_5 e => exact (absent (.fix 0 0) e).elim
  case h_6 e => exact (absent (.lamp 0 0 0) e).elim
  case h_7 e => exact (absent .clearTable e).elim
  case h_8 e => exact (absent .leave e).elim
  case h_9 e => exact (absent (.readBinding 0) e).elim
  case h_10 e => exact (absent (.yieldAsk 0 ⟨0, 0, 0, 0, 0, 0⟩) e).elim
  case h_11 e => exact (absent (.yieldReply 0 0) e).elim
  case h_12 e => exact (absent (.openGroup 0 0) e).elim
  case h_13 e => exact (absent (.closeGroup 0) e).elim
  case h_14 e => exact (absent (.clearSelection 0) e).elim
  case h_15 e => exact (absent (.readGroup 0) e).elim
  case h_16 e => exact (absent (.setProfile 0 0 0 0 0) e).elim
  case h_17 e => exact (absent (.readProfile 0) e).elim
  case h_18 e => exact (absent (.setPort 0 0) e).elim
  case h_19 e => exact (absent .readHeld e).elim
  case h_20 e => exact (absent (.readPanel 0) e).elim
  case h_21 e => exact (absent (.setLinks 0 0 0) e).elim
  case h_22 e => exact (absent .readDesk e).elim
  case h_23 e => exact (absent .deskReset e).elim
  case h_24 => rfl

/-- The bytes past the operands of a request do not change which request its code spells. -/
theorem readRequest_supervisorOnly {r : Request} {ops : List Byte} (hl : r.operands.length ≤ ops.length)
    (hr : r.supervisorOnly = true) : ∃ r', readRequest r.code ops = some r' ∧ r'.supervisorOnly = true := by
  cases r <;> simp only [Request.supervisorOnly, Bool.false_eq_true] at hr
  case fix | setLinks =>
    obtain ⟨a, b, c, rest, rfl⟩ : ∃ a b c rest, ops = a :: b :: c :: rest := by
      match ops, hl with
      | a :: b :: c :: rest, _ => exact ⟨a, b, c, rest, rfl⟩
    exact ⟨_, rfl, rfl⟩
  case setProfile =>
    obtain ⟨a, b, c, d, e, rest, rfl⟩ : ∃ a b c d e rest, ops = a :: b :: c :: d :: e :: rest := by
      match ops, hl with
      | a :: b :: c :: d :: e :: rest, _ => exact ⟨a, b, c, d, e, rest, rfl⟩
    exact ⟨_, rfl, rfl⟩
  case clearTable | deskReset => exact ⟨_, rfl, rfl⟩

theorem takeSubmit_unknown (p : Port) {c : Byte} (h : ∀ r : Request, r.code ≠ c) (ops : List Byte) :
    takeSubmit p (c :: ops) = portAnswer .unknown c := by
  simp only [takeSubmit, operandLength_none h]

theorem takeSubmit_short (p : Port) {r : Request} {ops : List Byte} (h : ops.length < r.operands.length) :
    takeSubmit p (r.code :: ops) = portAnswer .short r.code := by
  simp only [takeSubmit, operandLength_code, h, if_true]

theorem takeSubmit_onlySupervisor {p : Port} (hp : p ≠ 0) {r : Request} {ops : List Byte}
    (hl : r.operands.length ≤ ops.length) (hr : r.supervisorOnly = true) :
    takeSubmit p (r.code :: ops) = portAnswer .supervisor r.code := by
  obtain ⟨r', read, sup⟩ := readRequest_supervisorOnly hl hr
  simp [takeSubmit, operandLength_code, read, sup, hp, hl]

theorem takeSubmit_working {p : Port} {r : Request} (h : r.supervisorOnly = true → p = 0) (extra : List Byte) :
    takeSubmit p (r.code :: (r.operands ++ extra)) = .working r := by
  have long : ¬ (r.operands ++ extra).length < r.operands.length := by simp
  have allowed : ¬ (r.supervisorOnly && decide (p ≠ 0)) = true := by simpa using h
  simp only [takeSubmit, operandLength_code, readRequest_operands, if_neg long, if_neg allowed]

section
variable {s : State} {p : Port} {x : Transaction}

theorem exec_submit (hx : s.ports[p].txn = some x) (hr : x.reading = .unread) (bytes : List Byte) :
    exec (.submit p bytes) s = .next (s.setPort p { ((s.ports[p].takeKind x .unread).risen s.deskTime).submitted p bytes
      with lastOut := x.statusByte :: List.replicate bytes.length 0 }) := by
  show execSubmit p bytes s = _
  have zeros : bytes.map (fun _ => (0 : Byte)) = List.replicate bytes.length 0 := by simp
  simp only [execSubmit, hx, hr, Transaction.submitOut, zeros]

theorem PortUnit.submitted_idle {u : PortUnit} (h : u.state = .idle) (p : Port) (bytes : List Byte) :
    u.submitted p bytes = { u with state := takeSubmit p bytes, refused := false } := by
  simp only [PortUnit.submitted, h]

theorem PortUnit.submitted_busy {u : PortUnit} (h : u.state ≠ .idle) (p : Port) (bytes : List Byte) :
    u.submitted p bytes = { u with refused := true } := by
  unfold PortUnit.submitted
  split <;> first | rfl | contradiction

end

/-- Settles O20: the operand bytes of a request spell it, and an IDLE port works on it. -/
theorem submitTakesEveryRequest : Obligations.SubmitTakesEveryRequest := by
  intro s p x r extra hx hr hi hs
  have taken := exec_submit hx hr (r.code :: (r.operands ++ extra))
  have idle : ((s.ports[p].takeKind x .unread).risen s.deskTime).state = .idle := hi
  rw [PortUnit.submitted_idle idle, takeSubmit_working hs] at taken
  obtain ⟨t, ht, hp, only⟩ := changes_port taken
  have length : (r.code :: (r.operands ++ extra)).length = 1 + r.operands.length + extra.length := by
    simp only [List.length_cons, List.length_append]
    omega
  rw [length] at hp
  exact ⟨t, ht, hp, only⟩

/-- Settles O21: the checks of R176 in their order, and R177 for a port that is not IDLE. -/
theorem submitRefusedAtThePort : Obligations.SubmitRefusedAtThePort := by
  intro s p x hx hr risen leaves
  have refuses : s.ports[p].state = .idle → ∀ bytes st code, takeSubmit p bytes = portAnswer st code →
      leaves bytes { risen with state := .answered ⟨st, code, []⟩, refused := false } := by
    intro hi bytes st code h
    have idle : ((s.ports[p].takeKind x .unread).risen s.deskTime).state = .idle := hi
    have taken := exec_submit hx hr bytes
    rw [PortUnit.submitted_idle idle, h] at taken
    exact changes_port taken
  refine ⟨fun hi => ⟨?_, fun c ops h => ?_, fun r ops h => ?_, fun r ops hl hs hp => ?_⟩, fun hi bytes => ?_⟩
  · exact refuses hi _ _ _ rfl
  · exact refuses hi _ _ _ (takeSubmit_unknown p h ops)
  · exact refuses hi _ _ _ (takeSubmit_short p h)
  · exact refuses hi _ _ _ (takeSubmit_onlySupervisor hp hl hs)
  · have busy : ((s.ports[p].takeKind x .unread).risen s.deskTime).state ≠ .idle := hi
    have taken := exec_submit hx hr bytes
    rw [PortUnit.submitted_busy busy] at taken
    exact changes_port taken

end Sys2Proof.Machine
end

section
/-! PROOF. SET PORT, the cases of an offer, the sets of R9, and the read requests (R9, R10, R13, R79, R113 to R115, R122,
R168, R184). -/

namespace Sys2Proof.Machine

/-! ## SET PORT (R122) -/

theorem lineModeOf_eq (b : Byte) : lineModeOf b = [LineMode.off, .urgent, .any][b.toNat]? := by
  unfold lineModeOf
  generalize b.toNat = n
  match n with
  | 0 | 1 | 2 => rfl
  | n + 3 => rfl

section
variable {s : State} {p : Port} {mode lapse : Byte}

theorem setPort_refused (hw : WorkingOn s p (.setPort mode lapse)) (h : 2 < mode.toNat ∨ 60 < lapse.toNat) :
    OnlyAnswers (.setPort p) s p .badAttr 0x50 [] := by
  refine onlyAnswers_of hw rfl ?_
  show execSetPort p s = _
  simp only [execSetPort, State.requestOf_working hw]
  cases hm : lineModeOf mode with
  | none => rfl
  | some m =>
    have bound : mode.toNat < 3 := by
      rw [lineModeOf_eq] at hm
      exact (List.getElem?_eq_some_iff.mp hm).1
    simp only [if_pos (show 60 < lapse.toNat by omega)]

/-- The port that SET PORT leaves before it is answered, and the host's presence (R57, R60, R122). -/
theorem State.writePort_ports (s : State) (p : Port) (m : LineMode) (lapse : Byte) :
    (s.writePort p m lapse).ports = upd s.ports p { s.ports[p] with lineMode := m, lapseTime := lapse } ∧
    (s.writePort p m lapse).noteLow = upd s.noteLow p (lineDrive m s.queues[p]) ∧
    (s.writePort p m lapse).presence = (if lapse = 0 then upd s.presence p .present else s.presence) := by
  unfold State.writePort
  split <;> simp [State.driveNote]

theorem exec_setPort_accepted (hw : WorkingOn s p (.setPort mode lapse)) {m : LineMode}
    (hm : [LineMode.off, .urgent, .any][mode.toNat]? = some m) (hl : lapse.toNat ≤ 60) :
    exec (.setPort p) s = .next ((s.writePort p m lapse).answer p .ok []) := by
  show execSetPort p s = _
  simp only [execSetPort, State.requestOf_working hw, lineModeOf_eq, hm, if_neg (Nat.not_lt.mpr hl)]

end

/-- Settles O23: the two operands checked, then both settings written and the line driven. -/
theorem setPortWritesSettings : Obligations.SetPortWritesSettings := by
  refine fun s p mode lapse hw => ⟨setPort_refused hw, fun m hm hl => ?_⟩
  obtain ⟨ports, note, presence⟩ := s.writePort_ports p m lapse
  have hw' : WorkingOn (s.writePort p m lapse) p (.setPort mode lapse) := by
    unfold WorkingOn
    rw [ports, upd_self]
    exact hw
  refine ⟨_, exec_setPort_accepted hw hm hl, ?_, by simp [note], by simp [presence], fun x hx => ?_⟩
  · rw [State.answer_working hw', State.setPort_ports, ports, upd_upd, upd_self]
    rfl
  · cases x
    case ports | noteLow | presence => exact absurd (by simp) hx
    all_goals simp [Part.Same]

/-! ## The cases of an offer (R113 to R115) -/

theorem any_overrun_iff (l : List Notice) :
    l.any (fun n => decide (n.kind = .overrun)) = true ↔ ∃ n ∈ l, n.kind = .overrun := by
  simp

section
variable {now : Time} {l : List Notice} {r : Report}

theorem offerTo_counted (h : ∃ n ∈ l, n.kind = .overrun) : offerTo now l r = l.map raiseDropped :=
  if_pos ((any_overrun_iff l).mpr h)

theorem not_any_overrun (h : ∀ n ∈ l, n.kind ≠ .overrun) : ¬ l.any (fun n => decide (n.kind = .overrun)) = true := by
  rw [any_overrun_iff]
  exact fun ⟨n, hn, e⟩ => h n hn e

theorem offerTo_renewed (h : ∀ n ∈ l, n.kind ≠ .overrun) (hr : renewsLast l r = true) :
    offerTo now l r = renewLast now l r := by
  rw [offerTo, if_neg (not_any_overrun h), if_pos hr]

theorem offerTo_added (h : ∀ n ∈ l, n.kind ≠ .overrun) (hr : ¬ renewsLast l r = true) :
    offerTo now l r = if Config.maxQueue ≤ l.length + 1 then l ++ [overrunNotice now] else l ++ [{ r with stamp := now }] := by
  rw [offerTo, if_neg (not_any_overrun h), if_neg hr]

theorem renewsLast_iff : renewsLast l r = true ↔
    ∃ n ∈ l.getLast?, r.kind = .repeated ∧ n.kind = .repeated ∧ n.pos = r.pos ∧ n.gen = r.gen := by
  unfold renewsLast
  split
  next n e => simp [e, renews, and_assoc]
  next e => simp [e]

theorem renewLast_append (older : List Notice) (n : Notice) :
    renewLast now (older ++ [n]) r = older ++ [{ n with extra := r.extra, stamp := now }] := by
  simp [renewLast]

end

/-- Settles O24: the four cases of an offer in their order. -/
theorem offersTakeTheFirstCase : Obligations.OffersTakeTheFirstCase := by
  refine fun now l r => ⟨offerTo_counted, fun none => ⟨fun older n hl hr hn hp hg => ?renewed, fun fresh => ?added⟩⟩
  case renewed =>
    have renews : renewsLast l r = true := renewsLast_iff.mpr ⟨n, by simp [hl], hr, hn, hp, hg⟩
    rw [offerTo_renewed none renews, hl, renewLast_append]
  case added =>
    have added := offerTo_added (now := now) none (r := r) fun h => by
      obtain ⟨n, hn, h⟩ := renewsLast_iff.mp h
      exact fresh n hn h
    refine ⟨fun len => ⟨overrunNotice now, ?_, rfl, rfl, rfl, rfl, rfl, rfl, rfl, rfl⟩, fun len => ?_⟩
    · rw [added, if_pos (by simp only [Config.maxQueue]; omega)]
    · rw [added, if_neg (by simp only [Config.maxQueue]; omega)]

/-! ## Sets and their validation (R9, R10) -/

theorem index_isNone (k : Nat) (b : Byte) : index k b = none ↔ k ≤ b.toNat := by
  unfold index
  split <;> simp <;> omega

theorem index_val {k : Nat} {b : Byte} {i : Fin k} (h : index k b = some i) : i.1 = b.toNat := by
  unfold index at h
  split at h
  · exact congrArg Fin.val (Option.some.inj h).symm
  · cases h

/-- A class is refused for its number, or for the item it carries. -/
theorem classOf_eq_none_iff (a : RawAttrs) : classOf a = none ↔
    4 < a.cls.toNat ∨ (a.cls.toNat = 2 ∧ 7 < a.profile.toNat) ∨ (a.cls.toNat = 4 ∧ 31 < a.group.toNat) := by
  unfold classOf
  generalize a.cls.toNat = n
  match n with
  | 0 | 1 | 3 => simp
  | 2 | 4 => simp [index_isNone, Nat.lt_iff_add_one_le]
  | n + 5 => simp

theorem classOf_spec {a : RawAttrs} {c : KeyClass} (h : classOf a = some c) :
    c.number = a.cls.toNat ∧ (∀ i, c = .repeating i → i.1 = a.profile.toNat) ∧
      (∀ g, c = .select g → g.1 = a.group.toNat) ∧ c ≠ .toggle true := by
  unfold classOf at h
  split at h
  case h_3 e =>
    obtain ⟨i, hi, rfl⟩ := Option.map_eq_some_iff.mp h
    exact ⟨e.symm, by simpa using index_val hi, by simp, by simp⟩
  case h_5 e =>
    obtain ⟨g, hg, rfl⟩ := Option.map_eq_some_iff.mp h
    exact ⟨e.symm, by simp, by simpa using index_val hg, by simp⟩
  case h_6 => cases h
  all_goals
    next e =>
      obtain rfl := Option.some.inj h
      exact ⟨e.symm, by simp, by simp, by simp⟩

theorem lampModeOf_eq_none_iff (b : Byte) : lampModeOf b = none ↔ 4 < b.toNat := by
  unfold lampModeOf
  generalize b.toNat = n
  match n with
  | 0 | 1 | 2 | 3 | 4 => simp
  | n + 5 => simp

theorem lampModeOf_number {b : Byte} {m : LampMode} (h : lampModeOf b = some m) : m.number = b.toNat := by
  unfold lampModeOf at h
  split at h
  case h_6 => cases h
  all_goals
    next e =>
      obtain rfl := Option.some.inj h
      exact e.symm

theorem lampValueOf_eq (b : Byte) : lampValueOf b = [Lamp.off, .on, .slow, .fast][b.toNat]? := by
  unfold lampValueOf
  generalize b.toNat = n
  match n with
  | 0 | 1 | 2 | 3 => rfl
  | n + 4 => rfl

theorem lampValueOf_eq_none_iff (b : Byte) : lampValueOf b = none ↔ 3 < b.toNat := by
  rw [lampValueOf_eq, List.getElem?_eq_none_iff]
  rfl

theorem lampValueOf_number {b : Byte} {v : Lamp} (h : lampValueOf b = some v) : v.number = b.toNat := by
  unfold lampValueOf at h
  split at h
  case h_5 => cases h
  all_goals
    next e =>
      obtain rfl := Option.some.inj h
      exact e.symm

theorem lampModeFits_iff (c : KeyClass) (m : LampMode) : lampModeFits c m = true ↔
    (m.number = 3 → c.number = 3) ∧ (m.number = 4 → c.number = 4) := by
  cases m <;> cases c <;> simp [lampModeFits, LampMode.number, KeyClass.number]

theorem validate_eq_some_iff (raw : RawAttrs) (a : AttrSet) : raw.validate = some a ↔
    classOf raw = some a.cls ∧ lampModeOf raw.lampMode = some a.lampMode ∧
      lampValueOf raw.lampValue = some a.lampValue ∧ a.code = raw.code ∧ lampModeFits a.cls a.lampMode = true := by
  obtain ⟨cls, code, mode, value⟩ := a
  unfold RawAttrs.validate
  split
  next c m v hc hm hv =>
    rw [hc, hm, hv]
    constructor
    · intro h
      split at h
      · obtain ⟨rfl, rfl, rfl, rfl⟩ := AttrSet.mk.inj (Option.some.inj h)
        exact ⟨rfl, rfl, rfl, rfl, ‹_›⟩
      · cases h
    · rintro ⟨h1, h2, h3, h4, h5⟩
      obtain rfl := Option.some.inj h1
      obtain rfl := Option.some.inj h2
      obtain rfl := Option.some.inj h3
      obtain rfl : code = raw.code := h4
      exact if_pos h5
  next h =>
    refine ⟨fun e => (nomatch e), fun ⟨hc, hm, hv, _⟩ => absurd hv ?_⟩
    exact h _ _ _ hc hm

/-- Settles O26: each refusal is the refusal of one item, or of a lamp mode that does not fit the class. -/
theorem attributeValidation : Obligations.AttributeValidation := by
  refine fun raw => ⟨⟨fun refused => ?whole, fun bad => ?refuses⟩, fun a ha => ?kept⟩
  case whole =>
    by_contra good
    simp only [not_or, not_and, Nat.not_lt] at good
    obtain ⟨cls, mode, value, latch, selected, profile, group⟩ := good
    obtain ⟨c, hc⟩ := Option.ne_none_iff_exists'.mp (mt (classOf_eq_none_iff raw).mp (by omega))
    obtain ⟨m, hm⟩ := Option.ne_none_iff_exists'.mp (mt (lampModeOf_eq_none_iff raw.lampMode).mp (by omega))
    obtain ⟨v, hv⟩ := Option.ne_none_iff_exists'.mp (mt (lampValueOf_eq_none_iff raw.lampValue).mp (by omega))
    have fits : lampModeFits c m = true := by
      rw [lampModeFits_iff, (classOf_spec hc).1, lampModeOf_number hm]
      omega
    have good := (validate_eq_some_iff raw ⟨c, raw.code, m, v⟩).mpr ⟨hc, hm, hv, rfl, fits⟩
    rw [refused] at good
    cases good
  case refuses =>
    rw [Option.eq_none_iff_forall_ne_some]
    intro a ha
    obtain ⟨hc, hm, hv, -, hf⟩ := (validate_eq_some_iff raw a).mp ha
    have cls := mt (classOf_eq_none_iff raw).mpr (by simp [hc])
    have mode := mt (lampModeOf_eq_none_iff raw.lampMode).mpr (by simp [hm])
    have value := mt (lampValueOf_eq_none_iff raw.lampValue).mpr (by simp [hv])
    rw [lampModeFits_iff, (classOf_spec hc).1, lampModeOf_number hm] at hf
    omega
  case kept =>
    obtain ⟨hc, hm, hv, code, -⟩ := (validate_eq_some_iff raw a).mp ha
    obtain ⟨number, profile, group, latch⟩ := classOf_spec hc
    exact ⟨number, code, lampModeOf_number hm, lampValueOf_number hv, profile, group, latch⟩

/-! ## The read requests (R13, R79, R168, R184) -/

theorem Binding.bytes_eq (b : Binding) : b.bytes =
    [match b.owner with | some h => BitVec.ofNat 8 h.1 | none => 0xFF, b.gen, BitVec.ofNat 8 b.hold.number,
      BitVec.ofNat 8 b.cls.number, b.code.extractLsb' 8 8, b.code.extractLsb' 0 8,
      match b.cls with | .repeating i => BitVec.ofNat 8 i.1 | _ => 0xFF,
      match b.cls with | .select g => BitVec.ofNat 8 g.1 | _ => 0xFF,
      BitVec.ofNat 8 b.lampMode.number, BitVec.ofNat 8 b.lampValue.number,
      match b.cls with | .toggle l => BitVec.ofNat 8 l.toNat | _ => 0xFF] := by
  obtain ⟨owner, gen, hold, cls, code, lampMode, lampValue⟩ := b
  cases owner <;> cases cls <;> rfl

theorem HeldRecord.bytes_eq (r : HeldRecord) : r.bytes =
    (let due : Time := match r.phase with | .held => 0 | .delay d => d | .repeating d _ => d
     let period : Half := match r.phase with | .repeating _ k => BitVec.ofNat 16 k | _ => 0
     let phase := match r.phase with | .held => 0 | .delay _ => 1 | .repeating _ _ => 2
     [BitVec.ofNat 8 (128 * r.resync.toNat + 64 * r.closingDue.toNat + 16 * phase + r.pos.1 / 256),
       BitVec.ofNat 8 (r.pos.1 % 256),
       match r.openedTo with | some o => BitVec.ofNat 8 o.host.1 | none => 0xFF,
       match r.openedTo with | some o => o.gen | none => 0,
       r.pressedAt.extractLsb' 8 8, r.pressedAt.extractLsb' 0 8, due.extractLsb' 8 8, due.extractLsb' 0 8,
       period.extractLsb' 8 8, period.extractLsb' 0 8, BitVec.ofNat 8 (r.repeatCount / 256 % 256),
       BitVec.ofNat 8 (r.repeatCount % 256)]) := by
  have word : 32768 * r.resync.toNat + 16384 * r.closingDue.toNat + 4096 * r.phase.number + r.pos.1 =
      4096 * (8 * r.resync.toNat + 4 * r.closingDue.toNat + r.phase.number) + r.pos.1 := by omega
  have high : 16 * (8 * r.resync.toNat + 4 * r.closingDue.toNat + r.phase.number) + r.pos.1 / 256 =
      128 * r.resync.toNat + 64 * r.closingDue.toNat + 16 * r.phase.number + r.pos.1 / 256 := by omega
  unfold HeldRecord.bytes
  rw [word, bytes2_flags, high, bytes2_ofNat r.repeatCount, ofNat8_mod (r.repeatCount / 256),
    ofNat8_mod r.repeatCount]
  obtain ⟨pos, pressedAt, openedTo, closingDue, phase, repeatCount, resync⟩ := r
  cases openedTo <;> cases phase <;> rfl

theorem panelBytes_eq (e : Bool) (l : LinkEngine) : panelBytes e l =
    [BitVec.ofNat 8 l.session.number, BitVec.ofNat 8 e.toNat,
      match l.session.identity with | some i => i.panelType | none => 0,
      match l.session.identity with | some i => BitVec.ofNat 8 i.keyCount | none => 0,
      BitVec.ofNat 8 l.failures, (BitVec.ofNat 16 l.failedCount).extractLsb' 8 8,
      (BitVec.ofNat 16 l.failedCount).extractLsb' 0 8, BitVec.ofNat 8 l.lostCount] := by
  unfold panelBytes
  cases l.session.identity <;> rfl

/-- Settles O35: each read request answers its layout, the operand checked first. -/
theorem readsChangeNothing : Obligations.ReadsChangeNothing := by
  refine fun s p => ⟨fun w hw => ⟨fun big => ?noPosition, fun q hq => ?binding⟩, fun hw => ?held,
    fun b hw => ⟨fun big => ?noPanel, fun n hn => ?panel⟩, fun hw => ?desk⟩
  case noPosition =>
    refine onlyAnswers_of hw rfl ?_
    show execReadBinding p s = _
    simp only [execReadBinding, State.requestOf_working hw, position_none big]
  case binding =>
    have answer : OnlyAnswers (.readBinding p) s p .ok 0x18 s.table[q].bytes := by
      refine onlyAnswers_of hw rfl ?_
      show execReadBinding p s = _
      simp only [execReadBinding, State.requestOf_working hw, position_eq hq]
    rw [Binding.bytes_eq] at answer
    exact answer
  case held =>
    have answer : OnlyAnswers (.readHeld p) s p .ok 0x60 (byte s.held.length :: s.held.flatMap HeldRecord.bytes) := by
      refine onlyAnswers_of hw rfl ?_
      show execReadHeld p s = _
      simp only [execReadHeld, State.requestOf_working hw]
      rfl
    rw [funext HeldRecord.bytes_eq] at answer
    exact answer
  case noPanel =>
    refine onlyAnswers_of hw rfl ?_
    show execReadPanel p s = _
    simp only [execReadPanel, State.requestOf_working hw, index_none big]
  case panel =>
    have answer : OnlyAnswers (.readPanel p) s p .ok 0x61 (panelBytes (s.enabled n) s.links[n]) := by
      refine onlyAnswers_of hw rfl ?_
      show execReadPanel p s = _
      simp only [execReadPanel, State.requestOf_working hw, index_eq hn]
    rw [panelBytes_eq] at answer
    exact answer
  case desk =>
    refine onlyAnswers_of hw rfl ?_
    show execReadDesk p s = _
    simp only [execReadDesk, State.requestOf_working hw]
    rfl

end Sys2Proof.Machine
end

section
/-! PROOF. Requests refused with nothing changed: the range requests, CLAIM and YIELD ASK (R3, R19, R24 to R32, R42); and
the group requests (R98 to R100). -/

namespace Sys2Proof.Machine

/-! ## Range requests by their checks (R2 to R4) -/

section
variable {s : State} {p : Port} {f : Half} {n : Byte} {qs : List KeyPos} {whole : Option StatusCode}
  {failure : List KeyPos → Option (StatusCode × Nat)} {effect : State → KeyPos → State}

theorem State.rangeRequest_whole (hr : rangeOf f n = some qs) (st : StatusCode) :
    s.rangeRequest p f n (some st) failure effect = s.answer p st [0] := by
  simp only [State.rangeRequest, hr]

theorem State.rangeRequest_fails (hr : rangeOf f n = some qs) {st : StatusCode} {k : Nat}
    (hf : failure qs = some (st, k)) : s.rangeRequest p f n none failure effect = s.answer p st [byte k] := by
  simp only [State.rangeRequest, hr, hf]

theorem State.rangeRequest_passes (hr : rangeOf f n = some qs) (hf : failure qs = none) :
    s.rangeRequest p f n none failure effect = (qs.foldl effect s).answer p .ok [0] := by
  simp only [State.rangeRequest, hr, hf]

/-- A range request whose check refuses a first position answers its status and offset alone. -/
theorem onlyAnswers_firstFailure {c : Instr} {r : Request} {check : KeyPos → Option StatusCode} {pre post : List KeyPos}
    {q : KeyPos} {st : StatusCode} (hr : rangeOf f n = some (pre ++ q :: post)) (hw : WorkingOn s p r)
    (he : exec c s = .next (s.rangeRequest p f n none (firstFailure check 0) effect))
    (hp : ∀ x ∈ pre, check x = none) (hq : check q = some st) :
    OnlyAnswers c s p st r.code [BitVec.ofNat 8 pre.length] := by
  refine onlyAnswers_of hw rfl ?_
  rw [he, State.rangeRequest_fails hr (firstFailure_at hp hq 0), Nat.zero_add]
  rfl

end

/-! ## The checks of a position (R19, R24, R28 to R30, R32) -/

section
variable {s : State} {p : Port} {q : KeyPos}

theorem State.ownRefusal_passes (h : s.table[q].owner = some p) (hh : s.table[q].hold ≠ .fixed) :
    s.ownRefusal p q = none := by
  simp only [State.ownRefusal, if_pos h, if_neg hh]

theorem State.ownRefusal_notOwner (h : s.table[q].owner ≠ some p) : s.ownRefusal p q = some .notOwner := by
  simp only [State.ownRefusal, if_neg h]

theorem State.ownRefusal_fixed (h : s.table[q].owner = some p) (hh : s.table[q].hold = .fixed) :
    s.ownRefusal p q = some .fixed := by
  simp only [State.ownRefusal, if_pos h, if_pos hh]

theorem KeyClass.group?_eq_some_iff (c : KeyClass) (g : GroupId) : c.group? = some g ↔ c = .select g := by
  cases c <;> simp [KeyClass.group?]

theorem KeyClass.group?_eq_none_iff (c : KeyClass) : c.group? = none ↔ ∀ g, c ≠ .select g := by
  cases c <;> simp [KeyClass.group?]

theorem State.fixRefusal_passes (h : s.table[q].owner ≠ none) (hc : ∀ g, s.table[q].cls ≠ .select g) :
    s.fixRefusal q = none := by
  obtain ⟨k, hk⟩ := Option.ne_none_iff_exists'.mp h
  simp only [State.fixRefusal, hk, (KeyClass.group?_eq_none_iff _).mpr hc, Option.isSome_none, Bool.false_eq_true,
    if_false]

theorem State.fixRefusal_free (h : s.table[q].owner = none) : s.fixRefusal q = some .freePosition := by
  simp only [State.fixRefusal, h]

theorem State.fixRefusal_select (h : s.table[q].owner ≠ none) {g : GroupId} (hc : s.table[q].cls = .select g) :
    s.fixRefusal q = some .badAttr := by
  obtain ⟨k, hk⟩ := Option.ne_none_iff_exists'.mp h
  simp only [State.fixRefusal, hk, hc, KeyClass.group?, Option.isSome_some, if_true]

theorem State.lampRefusal_passes (h : s.table[q].owner = some p) (hm : s.table[q].lampMode = .host) :
    s.lampRefusal p q = none := by
  simp only [State.lampRefusal, if_pos h, if_pos hm]

theorem State.lampRefusal_notOwner (h : s.table[q].owner ≠ some p) : s.lampRefusal p q = some .notOwner := by
  simp only [State.lampRefusal, if_neg h]

theorem State.lampRefusal_mode (h : s.table[q].owner = some p) (hm : s.table[q].lampMode ≠ .host) :
    s.lampRefusal p q = some .badAttr := by
  simp only [State.lampRefusal, if_pos h, if_neg hm]

end

/-- Settles O27: each request refuses the first position that its own check refuses. -/
theorem rangeRefusals : Obligations.RangeRefusals := by
  intro s p f n pre post q hr at_
  refine ⟨fun hp => ?own, fun hp hw => ?fix, fun v hw => ⟨fun hv => ?badValue, fun hv hp => ?lamp⟩⟩
  case own =>
    have passes : ∀ x ∈ pre, s.ownRefusal p x = none := fun x hx =>
      State.ownRefusal_passes (hp x hx).1 (hp x hx).2
    refine ⟨fun ho => ?notOwner, fun ho hh => ?fixed⟩
    case notOwner =>
      have refuses := State.ownRefusal_notOwner ho
      exact ⟨fun hw => onlyAnswers_firstFailure hr hw (exec_release_working hw) passes refuses,
        fun hw => onlyAnswers_firstFailure hr hw (exec_pin_working hw) passes refuses,
        fun hw => onlyAnswers_firstFailure hr hw (exec_unpin_working hw) passes refuses⟩
    case fixed =>
      have refuses := State.ownRefusal_fixed ho hh
      exact ⟨fun hw => onlyAnswers_firstFailure hr hw (exec_release_working hw) passes refuses,
        fun hw => onlyAnswers_firstFailure hr hw (exec_pin_working hw) passes refuses,
        fun hw => onlyAnswers_firstFailure hr hw (exec_unpin_working hw) passes refuses⟩
  case fix =>
    have passes : ∀ x ∈ pre, s.fixRefusal x = none := fun x hx =>
      State.fixRefusal_passes (hp x hx).1 (hp x hx).2
    exact ⟨fun ho => onlyAnswers_firstFailure hr hw (exec_fix_working hw) passes (State.fixRefusal_free ho),
      fun ho g hc => onlyAnswers_firstFailure hr hw (exec_fix_working hw) passes (State.fixRefusal_select ho hc)⟩
  case badValue =>
    refine onlyAnswers_of hw rfl ?_
    rw [exec_lamp_of_bad_value hw ((lampValueOf_eq_none_iff v).mpr hv), State.rangeRequest_whole hr]
  case lamp =>
    obtain ⟨l, hl⟩ := Option.ne_none_iff_exists'.mp (mt (lampValueOf_eq_none_iff v).mp (by omega))
    have passes : ∀ x ∈ pre, s.lampRefusal p x = none := fun x hx =>
      State.lampRefusal_passes (hp x hx).1 (hp x hx).2
    have exec := exec_lamp_of_good_value hw hl
    exact ⟨fun ho => onlyAnswers_firstFailure hr hw exec passes (State.lampRefusal_notOwner ho),
      fun ho hm => onlyAnswers_firstFailure hr hw exec passes (State.lampRefusal_mode ho hm)⟩

/-! ## The checks of CLAIM (R19) -/

section
variable {s : State} {p : Port}

theorem State.groupRefusal_free {a : AttrSet} {g : GroupId} (ha : a.cls = .select g) (hg : s.groups[g] = none) :
    s.groupRefusal p a = some .noGroup := by
  simp only [State.groupRefusal, ha, KeyClass.group?, hg]

theorem State.groupRefusal_other {a : AttrSet} {g : GroupId} {x : SelGroup} (ha : a.cls = .select g)
    (hg : s.groups[g] = some x) (hx : x.owner ≠ p) : s.groupRefusal p a = some .groupOwner := by
  simp only [State.groupRefusal, ha, KeyClass.group?, hg, if_neg hx]

/-- A set passes the group checks exactly where the group it may name is an OPEN one of the host. -/
theorem State.groupRefusal_eq_none_iff {a : AttrSet} : s.groupRefusal p a = none ↔
    ∀ g, a.cls = .select g → ∃ x, s.groups[g] = some x ∧ x.owner = p := by
  unfold State.groupRefusal
  cases a.cls with
  | select g =>
    simp only [KeyClass.group?, KeyClass.select.injEq, forall_eq']
    cases s.groups[g] with
    | none => simp
    | some x => simp
  | momentary => simp [KeyClass.group?]
  | pressOnly => simp [KeyClass.group?]
  | repeating i => simp [KeyClass.group?]
  | toggle l => simp [KeyClass.group?]

theorem State.claimRefusal_eq_none_iff {q : KeyPos} : s.claimRefusal p q = none ↔
    s.table[q].owner = none ∨ (s.table[q].owner = some p ∧ s.table[q].hold ≠ .fixed) := by
  unfold State.claimRefusal
  cases s.table[q].owner with
  | none => simp
  | some h =>
    by_cases e : h = p
    · by_cases e' : s.table[q].hold = .fixed <;> simp_all
    · simp [e]

theorem State.claimRefusal_owned {q : KeyPos} {h : Port} (ho : s.table[q].owner = some h) (hp : h ≠ p) :
    s.claimRefusal p q = some .owned := by
  simp only [State.claimRefusal, ho, if_neg hp]

theorem State.claimRefusal_fixed {q : KeyPos} (ho : s.table[q].owner = some p) (hh : s.table[q].hold = .fixed) :
    s.claimRefusal p q = some .fixed := by
  simp only [State.claimRefusal, ho, hh, if_true]

theorem State.isMember_iff {g : GroupId} {q : KeyPos} : s.isMember p g q = true ↔
    s.table[q].owner = some p ∧ s.table[q].cls = .select g := by
  rw [State.isMember, Bool.and_eq_true, decide_eq_true_iff, decide_eq_true_iff]

/-! CLAIM's check of a list by its first position. -/

theorem State.claimFailure_refused {q : KeyPos} {st : StatusCode} (h : s.claimRefusal p q = some st)
    (g : Option GroupId) (m k : Nat) (qs : List KeyPos) : s.claimFailure p g m k (q :: qs) = some (st, k) := by
  unfold State.claimFailure
  simp only [h]

theorem State.claimFailure_ungrouped {q : KeyPos} (h : s.claimRefusal p q = none) (m k : Nat) (qs : List KeyPos) :
    s.claimFailure p none m k (q :: qs) = s.claimFailure p none m (k + 1) qs := by
  conv_lhs => unfold State.claimFailure
  simp only [h]

theorem State.claimFailure_member {q : KeyPos} {g : GroupId} (h : s.claimRefusal p q = none)
    (hm : s.isMember p g q = true) (m k : Nat) (qs : List KeyPos) :
    s.claimFailure p (some g) m k (q :: qs) = s.claimFailure p (some g) m (k + 1) qs := by
  conv_lhs => unfold State.claimFailure
  simp only [h, hm, if_true]

theorem State.claimFailure_full {q : KeyPos} {g : GroupId} (h : s.claimRefusal p q = none)
    (hm : s.isMember p g q = false) {m : Nat} (full : 128 < m + 1) (k : Nat) (qs : List KeyPos) :
    s.claimFailure p (some g) m k (q :: qs) = some (.noRoom, k) := by
  have full : Config.maxMembers < m + 1 := full
  unfold State.claimFailure
  simp only [h, hm, Bool.false_eq_true, if_false, if_pos full]

theorem State.claimFailure_joins {q : KeyPos} {g : GroupId} (h : s.claimRefusal p q = none)
    (hm : s.isMember p g q = false) {m : Nat} (room : m + 1 ≤ 128) (k : Nat) (qs : List KeyPos) :
    s.claimFailure p (some g) m k (q :: qs) = s.claimFailure p (some g) (m + 1) (k + 1) qs := by
  have room : ¬ Config.maxMembers < m + 1 := Nat.not_lt.mpr room
  conv_lhs => unfold State.claimFailure
  simp only [h, hm, Bool.false_eq_true, if_false, if_neg room]

/-- How many positions of a list would newly join a group (R19). -/
def State.joiners (s : State) (p : Port) (g : GroupId) (l : List KeyPos) : Nat :=
  (l.filter (fun y => !(decide (s.table[y].owner = some p) && decide (s.table[y].cls = .select g)))).length

theorem State.joiners_cons_member {g : GroupId} {q : KeyPos} (h : s.isMember p g q = true) (l : List KeyPos) :
    s.joiners p g (q :: l) = s.joiners p g l := by
  have h' : (!(decide (s.table[q].owner = some p) && decide (s.table[q].cls = .select g))) = false := by
    rw [Bool.not_eq_false']
    exact h
  simp only [State.joiners, List.filter_cons, h', Bool.false_eq_true, if_false]

theorem State.joiners_cons_joiner {g : GroupId} {q : KeyPos} (h : s.isMember p g q = false) (l : List KeyPos) :
    s.joiners p g (q :: l) = s.joiners p g l + 1 := by
  have h' : (!(decide (s.table[q].owner = some p) && decide (s.table[q].cls = .select g))) = true := by
    rw [Bool.not_eq_true']
    exact h
  simp only [State.joiners, List.filter_cons, h', if_true, List.length_cons]

/-- Past positions that pass, the check of CLAIM goes on with the members they add. -/
theorem State.claimFailure_append {g : Option GroupId} {pre : List KeyPos} (rest : List KeyPos)
    (hp : ∀ x ∈ pre, s.claimRefusal p x = none) (m k : Nat)
    (hg : ∀ g', g = some g' → m + s.joiners p g' pre ≤ 128 ∨ s.joiners p g' pre = 0) :
    s.claimFailure p g m k (pre ++ rest) =
      s.claimFailure p g (m + ((g.map fun g' => s.joiners p g' pre).getD 0)) (k + pre.length) rest := by
  induction pre generalizing m k with
  | nil => cases g <;> simp [State.joiners]
  | cons x xs ih =>
    have hx := hp x (by simp)
    have hxs : ∀ y ∈ xs, s.claimRefusal p y = none := fun y hy => hp y (by simp [hy])
    have length : k + (x :: xs).length = k + 1 + xs.length := by simp only [List.length_cons]; omega
    rw [length, List.cons_append]
    cases g with
    | none =>
      rw [State.claimFailure_ungrouped hx]
      simpa using ih hxs m (k + 1) (by simp)
    | some g' =>
      have room := hg g' rfl
      simp only [Option.map_some, Option.getD_some] at ih ⊢
      cases member : s.isMember p g' x with
      | true =>
        rw [State.joiners_cons_member member] at room ⊢
        rw [State.claimFailure_member hx member]
        exact ih hxs m (k + 1) fun _ e => Option.some.inj e ▸ room
      | false =>
        rw [State.joiners_cons_joiner member] at room ⊢
        rw [State.claimFailure_joins hx member (by omega), ih hxs (m + 1) (k + 1) fun _ e => by
          obtain rfl := Option.some.inj e
          omega]
        congr 1
        omega

theorem State.membersOf_some {g : GroupId} {x : SelGroup} (h : s.groups[g] = some x) :
    s.membersOf (some g) = x.count := by
  simp only [State.membersOf, h, Option.map_some, Option.getD_some]

end

/-- Settles O29: the set and its group first, then the first position that fails, the members its lower offsets add
counted. -/
theorem claimRefusals : Obligations.ClaimRefusals := by
  refine fun s p f n raw pre post q hw hr => ⟨fun hv => ?badSet, fun a hv => ⟨fun g ha hg => ?free,
    fun g x ha hg hx => ?other, ?positions⟩⟩
  case badSet =>
    refine onlyAnswers_of hw rfl ?_
    rw [exec_claim_of_bad_set hw hv, State.rangeRequest_whole hr]
  case free =>
    refine onlyAnswers_of hw rfl ?_
    rw [exec_claim_of_good_set hw hv, State.groupRefusal_free ha hg, State.rangeRequest_whole hr]
  case other =>
    refine onlyAnswers_of hw rfl ?_
    rw [exec_claim_of_good_set hw hv, State.groupRefusal_other ha hg hx, State.rangeRequest_whole hr]
  case positions =>
    intro hp joiners hg
    have passes : ∀ x ∈ pre, s.claimRefusal p x = none := fun x hx => State.claimRefusal_eq_none_iff.mpr (hp x hx)
    have good : s.groupRefusal p a = none := State.groupRefusal_eq_none_iff.mpr fun g ha => by
      obtain ⟨x, hx, ho, -⟩ := hg g ha
      exact ⟨x, hx, ho⟩
    have room : ∀ g, a.cls.group? = some g → s.membersOf a.cls.group? + s.joiners p g pre ≤ 128 ∨
        s.joiners p g pre = 0 := fun g ha => by
      obtain ⟨x, hx, -, hroom⟩ := hg g ((KeyClass.group?_eq_some_iff _ _).mp ha)
      rw [ha, State.membersOf_some hx]
      exact hroom
    have reaches := State.claimFailure_append (q :: post) passes (s.membersOf a.cls.group?) 0 room
    rw [Nat.zero_add] at reaches
    have refuses : ∀ st, s.claimFailure p a.cls.group?
        (s.membersOf a.cls.group? + ((a.cls.group?.map fun g => s.joiners p g pre).getD 0)) pre.length (q :: post) =
          some (st, pre.length) → OnlyAnswers (.claim p) s p st 0x10 [BitVec.ofNat 8 pre.length] := fun st h => by
      refine onlyAnswers_of hw rfl ?_
      rw [exec_claim_of_good_set hw hv, good, State.rangeRequest_fails hr (reaches.trans h)]
      rfl
    refine ⟨fun h ho hp => refuses _ ?_, fun ho hh => refuses _ ?_, fun g x ha hg full hq => refuses _ ?_⟩
    · exact State.claimFailure_refused (State.claimRefusal_owned ho hp) _ _ _ _
    · exact State.claimFailure_refused (State.claimRefusal_fixed ho hh) _ _ _ _
    · have passes : s.claimRefusal p q = none := State.claimRefusal_eq_none_iff.mpr (by tauto)
      have joins : s.isMember p g q = false := Bool.eq_false_iff.mpr fun member => by
        obtain ⟨owner, cls⟩ := State.isMember_iff.mp member
        obtain ho | ⟨-, -, hc⟩ := hq
        · rw [ho] at owner
          cases owner
        · exact hc cls
      have group : a.cls.group? = some g := (KeyClass.group?_eq_some_iff _ _).mpr ha
      rw [group, State.membersOf_some hg]
      exact State.claimFailure_full passes joins full _ _

/-! ## YIELD ASK refused (R42) -/

section
variable {s : State} {p : Port} {w : Half} {raw : RawAttrs}

theorem exec_yieldAsk_unasked (hw : WorkingOn s p (.yieldAsk w raw))
    (hf : ∀ (i : AskId) (a : Ask), s.asks[i] = some a → a.asker ≠ p) :
    exec (.yieldAsk p) s = .next (s.takeAsk p w raw) := by
  show execYieldAsk p s = _
  simp [execYieldAsk, State.requestOf_working hw, State.askOf_none hf]

theorem State.takeAsk_refused {st : StatusCode} (h : s.checkAsk p w raw = .refused st) :
    s.takeAsk p w raw = s.answer p st [] := by
  simp only [State.takeAsk, h]

theorem State.checkAsk_outcome {q : KeyPos} {a : AttrSet} (hq : w.toNat = q.1) (hv : raw.validate = some a) :
    s.checkAsk p w raw = s.askOutcome p q a := by
  simp only [State.checkAsk, position_eq hq, hv]

end

/-- Settles O36: the operands, the group, then the position, each check in its place. -/
theorem yieldAskRefusals : Obligations.YieldAskRefusals := by
  intro s p w raw hw hf refuses
  have refused : ∀ st, s.checkAsk p w raw = .refused st → refuses st := fun st h =>
    onlyAnswers_of hw rfl (by rw [exec_yieldAsk_unasked hw hf, State.takeAsk_refused h])
  refine ⟨fun big => refused _ ?position, fun q hq => ⟨fun hv => refused _ ?set, fun a hv => ?checks⟩⟩
  case position => simp only [State.checkAsk, position_none big]
  case set => simp only [State.checkAsk, position_eq hq, hv]
  case checks =>
    have outcome := State.checkAsk_outcome (s := s) (p := p) hq hv
    refine ⟨fun g ha hg => refused _ ?_, fun g x ha hg hx => refused _ ?_, fun own => ?_⟩
    · rw [outcome, State.askOutcome, State.groupRefusal_free ha hg]
    · rw [outcome, State.askOutcome, State.groupRefusal_other ha hg hx]
    · rw [State.askOutcome, State.groupRefusal_eq_none_iff.mpr own] at outcome
      refine ⟨fun ho => refused _ ?_, fun ho => ⟨fun hh => refused _ ?_, fun hh => refused _ ?_,
        fun hh => ⟨fun i b hi hb => refused _ ?_, fun free g x ha hg full => refused _ ?_⟩⟩⟩
      · rw [outcome, if_pos ho]
      · rw [outcome, if_neg ho, if_pos hh]
      · rw [outcome, if_neg ho, if_neg (by rw [hh]; decide), if_pos hh]
      · have asked : (s.askOn q).isSome = true := by
          by_contra none
          rw [Option.not_isSome_iff_eq_none, State.askOn, List.findSome?_eq_none_iff] at none
          have h := none i (List.mem_finRange i)
          rw [hi, Option.bind_some, if_pos hb] at h
          cases h
        rw [outcome, if_neg ho, if_neg (by rw [hh]; decide), if_neg (by rw [hh]; decide), if_pos asked]
      · have full' : s.groupFull a = true := by
          simp only [State.groupFull, ha, KeyClass.group?, State.membersOf_some hg]
          exact decide_eq_true full
        rw [outcome, if_neg ho, if_neg (by rw [hh]; decide), if_neg (by rw [hh]; decide),
          if_neg (by rw [State.askOn_none free]; decide), if_pos full']

/-! ## Group requests (R98 to R100) -/

theorem groupModeOf_eq (b : Byte) : groupModeOf b = [GroupMode.strict, .loose][b.toNat]? := by
  unfold groupModeOf
  generalize b.toNat = n
  match n with
  | 0 | 1 => rfl
  | n + 2 => rfl

section
variable {s : State} {p : Port} {g : Byte}

/-- A group written and its port answered, and nothing else. -/
theorem setGroup_answers {c : Instr} {r : Request} {i : GroupId} {x : Option SelGroup} (hw : WorkingOn s p r)
    (he : exec c s = .next ((s.setGroup i x).answer p .ok [])) :
    ∃ t, exec c s = .next t ∧ Answers s t p .ok r.code [] ∧ t.groups = upd s.groups i x ∧
      OnlyChanges s t [.groups, .ports] := by
  have hw' : WorkingOn (s.setGroup i x) p r := hw
  refine ⟨_, he, ?_⟩
  rw [State.answer_working hw']
  refine ⟨rfl, rfl, fun y hy => ?_⟩
  cases y
  case groups | ports => exact absurd (by simp) hy
  all_goals rfl

theorem exec_openGroup_working {m : Byte} (hw : WorkingOn s p (.openGroup g m)) :
    exec (.openGroup p) s = .next (s.takeOpenGroup p g m) := by
  show execOpenGroup p s = _
  simp only [execOpenGroup, State.requestOf_working hw]

theorem State.takeOpenGroup_refused {m : Byte} (h : 31 < g.toNat ∨ 1 < m.toNat) :
    s.takeOpenGroup p g m = s.answer p .badAttr [] := by
  have bad : ∀ (i : GroupId) (mode : GroupMode), index 32 g = some i → groupModeOf m = some mode → False := by
    intro i mode hi hm
    rw [groupModeOf_eq] at hm
    have hm := (List.getElem?_eq_some_iff.mp hm).1
    have hi' := index_val hi
    simp only [List.length_cons, List.length_nil] at hm
    omega
  unfold State.takeOpenGroup
  split
  next hi hm => exact (bad _ _ hi hm).elim
  next => rfl

end

/-- Settles O40: the operands, then the state of the group. -/
theorem openGroupByState : Obligations.OpenGroupByState := by
  intro s p g m hw
  refine ⟨fun bad => ?refused, ?taken⟩
  case refused =>
    refine onlyAnswers_of hw rfl ?_
    rw [exec_openGroup_working hw, State.takeOpenGroup_refused bad]
  case taken =>
    intro i mode hi hm opens
    have taken := exec_openGroup_working hw
    rw [State.takeOpenGroup, index_eq hi, groupModeOf_eq, hm] at taken
    refine ⟨fun hg => ?_, fun x hg ho => ?_, fun x hg ho => ?_⟩
    · simp only [hg] at taken
      exact setGroup_answers hw taken
    · simp only [hg, if_pos ho] at taken
      exact setGroup_answers hw taken
    · simp only [hg, if_neg ho] at taken
      exact onlyAnswers_of hw rfl taken

section
variable {s : State} {p : Port} {g : Byte} {act : GroupId → SelGroup → State} {c : Instr} {r : Request}

/-- The checks that CLOSE GROUP and CLEAR SELECTION share, in their order (R99, R100). -/
theorem withOwnGroup_checks (hw : WorkingOn s p r) (he : exec c s = .next (s.withOwnGroup p g act)) :
    (31 < g.toNat → OnlyAnswers c s p .badAttr r.code []) ∧
    ∀ i : GroupId, g.toNat = i.1 →
      (s.groups[i] = none → OnlyAnswers c s p .noGroup r.code []) ∧
      ∀ x, s.groups[i] = some x →
        (x.owner ≠ p → OnlyAnswers c s p .groupOwner r.code []) ∧ (x.owner = p → exec c s = .next (act i x)) := by
  refine ⟨fun big => ?_, fun i hi => ⟨fun hg => ?_, fun x hg => ⟨fun ho => ?_, fun ho => ?_⟩⟩⟩
  · rw [State.withOwnGroup, index_none big] at he
    exact onlyAnswers_of hw rfl he
  · rw [State.withOwnGroup, index_eq hi] at he
    simp only [hg] at he
    exact onlyAnswers_of hw rfl he
  · rw [State.withOwnGroup, index_eq hi] at he
    simp only [hg, if_neg ho] at he
    exact onlyAnswers_of hw rfl he
  · rw [State.withOwnGroup, index_eq hi] at he
    simp only [hg, if_pos ho] at he
    exact he

theorem exec_closeGroup_working (hw : WorkingOn s p (.closeGroup g)) :
    exec (.closeGroup p) s = .next (s.withOwnGroup p g (fun i x =>
      if 0 < x.count then s.answer p .groupBusy [] else (s.setGroup i none).answer p .ok [])) := by
  show execCloseGroup p s = _
  simp only [execCloseGroup, State.requestOf_working hw]

theorem exec_clearSelection_working (hw : WorkingOn s p (.clearSelection g)) :
    exec (.clearSelection p) s = .next (s.withOwnGroup p g (fun i x => (s.deselect i x).answer p .ok [])) := by
  show execClearSelection p s = _
  simp only [execClearSelection, State.requestOf_working hw]

end

/-- The lamps stay drawn through what changes no lamp and nothing a lamp follows. -/
theorem Redrawn.of_same {s t u : State} {l : List KeyPos} (h : Redrawn s t l) (table : u.table = t.table)
    (groups : u.groups = t.groups) (held : u.held = t.held) (derived : u.derived = t.derived) (sent : u.sent = t.sent)
    (dirty : u.dirty = t.dirty) : Redrawn s u l := by
  refine ⟨fun q => ?_, fun b => ?_⟩
  · rw [State.lampFor_congr q (by rw [table]) groups held, derived]
    exact h.1 q
  · rw [dirty, derived, sent]
    exact h.2 b

/-- Settles O41: the shared checks, then the members, or the selection. -/
theorem closeGroupAndClearSelection : Obligations.CloseGroupAndClearSelection := by
  refine fun s p g => ⟨fun hw => ?close, fun hw => ?clear⟩
  case close =>
    obtain ⟨big, known⟩ := withOwnGroup_checks hw (exec_closeGroup_working hw)
    refine ⟨big, fun i hi => ⟨(known i hi).1, fun x hx => ?_⟩⟩
    obtain ⟨other, own⟩ := (known i hi).2 x hx
    refine ⟨other, fun ho members => ?_, fun ho members => ?_⟩
    · exact onlyAnswers_of hw rfl ((own ho).trans (by rw [if_pos members]))
    · exact setGroup_answers hw ((own ho).trans (by rw [if_neg (by omega)]))
  case clear =>
    obtain ⟨big, known⟩ := withOwnGroup_checks hw (exec_clearSelection_working hw)
    refine ⟨big, fun i hi => ⟨(known i hi).1, fun x hx => ?_⟩⟩
    obtain ⟨other, own⟩ := (known i hi).2 x hx
    refine ⟨other, fun ho hs => ?_, fun ho q hs => ?_⟩
    · exact onlyAnswers_of hw rfl ((own ho).trans (by simp only [State.deselect, hs]))
    · have deselects : s.deselect i x = (s.setGroup i (some { x with selected := none })).rederive q := by
        simp only [State.deselect, hs]
      have taken := own ho
      rw [deselects] at taken
      have hw' : WorkingOn ((s.setGroup i (some { x with selected := none })).rederive q) p (.clearSelection g) :=
        hw.congr (by simp)
      have drawn : Redrawn s ((s.setGroup i (some { x with selected := none })).rederive q) [q] :=
        State.rederive_redrawn q rfl rfl
      refine ⟨_, taken, ?_, by simp, drawn.of_same (by simp) (by simp) (by simp) (by simp) (by simp) (by simp),
        fun y hy => ?_⟩
      · rw [State.answer_working hw']
        simp [Answers, Request.code]
      · cases y
        case groups | derived | dirty | ports => exact absurd (by simp) hy
        all_goals simp [Part.Same]

end Sys2Proof.Machine
end

section
/-! PROOF. The yield unit: deadlines, the outcomes of a YIELD ASK, and replies (R43 to R51, R56). -/

namespace Sys2Proof.Machine

/-! ## Time (R182) -/

theorem later_toNat (t : Time) (n : Nat) : (later t n).toNat = (t.toNat + n) % 65536 := by
  simp [later, BitVec.toNat_add]

/-- A due that has come, or that has been passed by. -/
theorem reached_iff (now due : Time) (longest : Nat) :
    reached now due longest = true ↔ now = due ∨ longest < (due - now).toNat := by
  have zero : (due - now).toNat = 0 ↔ now = due := by
    rw [BitVec.toNat_eq, BitVec.toNat_sub]
    have := due.isLt
    have := now.isLt
    omega
  simp only [reached, Bool.or_eq_true, beq_iff_eq, decide_eq_true_iff, zero]

theorem not_reached {now due : Time} {longest : Nat} (h : now ≠ due) (k : (due - now).toNat ≤ longest) :
    ¬ reached now due longest = true := by
  rw [reached_iff]
  exact fun e => e.elim h fun e => absurd e (Nat.not_lt.mpr k)

/-! ## Deadlines (R50, R56) -/

/-- Settles O39: an ask past its deadline is closed, and one before it stands. -/
theorem askTimesOut : Obligations.AskTimesOut := by
  refine fun s i a w raw hi hw => ⟨fun due => ?closes, fun early close => ?stands⟩
  case closes =>
    have due : reached s.deskTime a.deadline Config.longestWait = true := (reached_iff _ _ _).mpr due
    refine ⟨_, ?_, State.closeAsk_spec hw i .timeout .timedOut⟩
    show execAskDeadline i s = _
    simp only [execAskDeadline, hi, if_pos due]
  case stands =>
    have early : ¬ reached s.deskTime a.deadline Config.longestWait = true := not_reached early close
    show execAskDeadline i s = _
    simp only [execAskDeadline, hi, if_neg early]

/-! ## The outcomes of YIELD ASK (R43 to R45) -/

/-- The first index for which a test holds. -/
theorem finRange_find?_eq_some {n : Nat} {f : Fin n → Bool} {i : Fin n} (hi : f i = true)
    (first : ∀ j, j < i → f j = false) : (List.finRange n).find? f = some i := by
  rw [List.find?_eq_some_iff_getElem]
  refine ⟨hi, i.1, by simp, by simp, fun j hj => ?_⟩
  have := first ⟨j, hj.trans i.2⟩ hj
  simpa using this

theorem State.freeAsk_lowest {s : State} {i : AskId} (hi : s.asks[i] = none)
    (first : ∀ j : AskId, j < i → s.asks[j] ≠ none) : s.freeAsk = some i := by
  refine finRange_find?_eq_some (by rw [hi]; rfl) fun j hj => ?_
  rw [← Bool.not_eq_true, Option.isNone_iff_eq_none]
  exact first j hj

section
variable {s : State} {p : Port} {q : KeyPos} {a : AttrSet}

/-- The outcome of an ask that passes checks 3 to 9, by the owner of the position (R42 orders 10 to 12). -/
theorem State.askOutcome_passes (free : ∀ (i : AskId) (b : Ask), s.asks[i] = some b → b.pos ≠ q)
    (group : ∀ g, a.cls = .select g → ∃ x, s.groups[g] = some x ∧ x.owner = p ∧ x.count < 128)
    (own : s.table[q].owner ≠ some p) (hold : s.table[q].hold = .opened) :
    (s.table[q].owner = none → s.askOutcome p q a = .claim q a) ∧
    ∀ h, s.table[q].owner = some h →
      s.askOutcome p q a = if s.presence[h] = .lapsed then .lapsed q a h else .entry q a h := by
  have good : s.groupRefusal p a = none := State.groupRefusal_eq_none_iff.mpr fun g ha => by
    obtain ⟨x, hx, ho, -⟩ := group g ha
    exact ⟨x, hx, ho⟩
  have room : ¬ s.groupFull a = true := by
    unfold State.groupFull
    cases ha : a.cls.group? with
    | none => exact Bool.false_ne_true
    | some g =>
      obtain ⟨x, hx, -, hc⟩ := group g ((KeyClass.group?_eq_some_iff _ _).mp ha)
      simp only [State.membersOf_some hx, decide_eq_true_iff]
      exact Nat.not_le.mpr hc
  unfold State.askOutcome
  simp only [good, if_neg own, hold, if_neg room, State.askOn_none free, Option.isSome_none, Bool.false_eq_true, if_false,
    reduceCtorEq]
  exact ⟨fun ho => by simp only [ho], fun h ho => by simp only [ho]⟩

theorem State.acquire_table (s : State) (p : Port) (a : AttrSet) (q : KeyPos) :
    (s.acquire p a q).table = upd s.table q (s.table[q].take p a) := by
  simp [State.acquire]

theorem State.acquire_redrawn (s : State) (p : Port) (a : AttrSet) (q : KeyPos) :
    Redrawn s (s.acquire p a q) [q] :=
  State.rederive_redrawn q (by simp) (by simp)

end

/-- Settles O37: the owner of the position decides between the claim, the grant and the entry. -/
theorem yieldAskOutcomes : Obligations.YieldAskOutcomes := by
  intro s p w raw q a hw hq hv free group own hold
  have taken := exec_yieldAsk_unasked hw fun i b hi => (free i b hi).1
  rw [State.takeAsk, State.checkAsk_outcome hq hv] at taken
  obtain ⟨unowned, owned⟩ := State.askOutcome_passes (fun i b hi => (free i b hi).2) group own hold
  refine ⟨fun ho => ?claim, fun h ho lapsed held opened form => ?lapsed, fun h i ho present hi first => ?entry⟩
  case claim =>
    simp only [unowned ho] at taken
    have hw' : WorkingOn (s.acquire p a q) p (.yieldAsk w raw) := hw.congr (by simp)
    have gen : (s.acquire p a q).table[q].gen = s.table[q].gen + 1 := by
      rw [State.acquire_table, upd_self]
      rfl
    rw [State.answerGranted, State.answer_working hw', gen] at taken
    refine ⟨_, taken, by simp [Answers, Request.code], by simp [State.acquire_table],
      (s.acquire_redrawn p a q).of_same rfl rfl rfl rfl rfl rfl, fun x hx => ?_⟩
    cases x
    case table | groups | derived | dirty | ports => exact absurd (by simp) hx
    all_goals simp [Part.Same]
  case lapsed =>
    simp only [owned h ho, if_pos lapsed] at taken
    obtain ⟨asks, answers, table, held, offered, drawn, only⟩ :=
      State.grant_spec (e := none) (a := a) hw ho held opened form
    refine ⟨_, taken, answers, table, held, offered, drawn, fun x hx => ?_⟩
    cases x
    case asks => exact asks
    all_goals exact only _ (by simp_all)
  case entry =>
    have present : ¬ s.presence[h] = .lapsed := by rw [present]; decide
    simp only [owned h ho, if_neg present, State.makeEntry, State.freeAsk_lowest hi first] at taken
    refine ⟨_, taken, ⟨s.askDeadline, by simp, later_toNat _ _⟩, ?_, fun x hx => ?_⟩
    · exact (State.offer_offered _ h _).of_same rfl rfl rfl rfl
    · cases x
      case asks | queues | noteLow => exact absurd (by simp) hx
      all_goals simp [Part.Same]

/-! ## YIELD REPLY (R49) -/

section
variable {s : State} {p : Port} {id d : Byte}

theorem exec_yieldReply_working (hw : WorkingOn s p (.yieldReply id d)) :
    exec (.yieldReply p) s = .next (s.takeReply p id d) := by
  show execYieldReply p s = _
  simp only [execYieldReply, State.requestOf_working hw]

theorem State.heldAsk_none (h : ∀ (i : AskId) (a : Ask), id.toNat = i.1 → s.asks[i] = some a → a.holder ≠ p) :
    s.heldAsk p id = none := by
  unfold State.heldAsk
  cases hi : index 4 id with
  | none => rfl
  | some i =>
    cases ha : s.asks[i] with
    | none => simp only [ha, Option.bind_none]
    | some a => simp only [ha, Option.bind_some, if_neg (h i a (index_val hi).symm ha)]

theorem State.heldAsk_some {i : AskId} {a : Ask} (hi : id.toNat = i.1) (ha : s.asks[i] = some a) (hp : a.holder = p) :
    s.heldAsk p id = some (i, a) := by
  simp only [State.heldAsk, index_eq hi, ha, Option.bind_some, if_pos hp]

/-- The replier's OK after the asker's answer. -/
theorem answers_then_ok {t : State} {k : Port} {st : StatusCode} {code : Byte} {data : List Byte} {r : Request}
    (hw : WorkingOn s p r) (hk : k ≠ p) (h : Answers s t k st code data) :
    (t.answer p .ok []).ports = upd (upd s.ports k { s.ports[k] with state := .answered ⟨st, code, data⟩ }) p
      { s.ports[p] with state := .answered ⟨.ok, r.code, []⟩ } := by
  have same : t.ports[p] = s.ports[p] := by rw [h, upd_ne _ _ _ _ hk]
  have hw' : WorkingOn t p r := by
    unfold WorkingOn
    rw [same]
    exact hw
  rw [State.answer_working hw', State.setPort_ports, h, ← h, same, h]

end

/-- Settles O38: the decision checked, the ask found by its id and holder, then the decision. -/
theorem yieldReplyEndsTheAsk : Obligations.YieldReplyEndsTheAsk := by
  intro s p id d hw
  have taken := exec_yieldReply_working hw
  refine ⟨fun bad => ?decision, fun good stale => ?stale, ?reply⟩
  case decision =>
    rw [State.takeReply, if_pos bad] at taken
    exact onlyAnswers_of hw rfl taken
  case stale =>
    rw [State.takeReply, if_neg (by omega), State.heldAsk_none stale] at taken
    exact onlyAnswers_of hw rfl taken
  case reply =>
    intro i a w raw hi ha hp hwa answered
    have other : a.asker ≠ p := by
      rintro rfl
      exact absurd (hw.symm.trans hwa) (by simp)
    refine ⟨fun hd => ?refuse, fun hd ho held opened form => ?grant⟩
    case refuse =>
      subst hd
      rw [State.takeReply, if_neg (by decide), State.heldAsk_some hi ha hp] at taken
      simp only [if_neg (show ¬ (0 : Byte) = 1 by decide)] at taken
      obtain ⟨asks, answers, -⟩ := State.endAsk_spec hwa i .refused
      refine ⟨_, taken, by simpa using asks, answers_then_ok hw other answers, fun x hx => ?_⟩
      cases x
      case asks | ports => exact absurd (by simp) hx
      all_goals simp [Part.Same]
    case grant =>
      subst hd
      rw [State.takeReply, if_neg (by decide), State.heldAsk_some hi ha hp] at taken
      simp only [if_true] at taken
      obtain ⟨asks, answers, table, held, offered, drawn, only⟩ :=
        State.grant_spec (e := some i) (a := a.set) hwa ho held opened form
      refine ⟨_, taken, by simpa [State.removeAsk] using asks, answers_then_ok hw other answers, by simpa using table, by simpa using held,
        offered.congr (by simp) (by simp),
        drawn.of_same (by simp) (by simp) (by simp) (by simp) (by simp) (by simp), fun x hx => ?_⟩
      have same := only x (by simpa using hx)
      cases x
      case ports => exact absurd (by simp) hx
      all_goals simpa only [Part.Same, State.answer_frame] using same

end Sys2Proof.Machine
end

section
/-! PROOF. Repeats, presses and releases: REPEAT_DUE, PRESS_EDGE, RELEASE_EDGE (R63 to R73, R87 to R89, R95, R102). -/

namespace Sys2Proof.Machine

/-! ## Lamps drawn one after another (R126, R128) -/

/-- The dirty flag of a block is read from the lamps of the block. -/
theorem dirtyFlag_upd_other {d : Vector Lamp 1024} {x : Vector (Option Lamp) 1024} {q : KeyPos} {v : Lamp} {b : Fin 128}
    (h : b ≠ blockOf q) : dirtyFlag (upd d q v) x b = dirtyFlag d x b := by
  have other : ∀ i : Fin 8, q.1 ≠ (lampPos b i).1 := fun i e => h (Fin.ext (by
    have := i.2
    simp only [lampPos, blockOf] at e ⊢
    omega))
  simp [dirtyFlag, other]

theorem Redrawn.nil {s t : State} (derived : t.derived = s.derived) (dirty : t.dirty = s.dirty) : Redrawn s t [] :=
  ⟨fun q => by simp [derived], fun b => by simp [dirty]⟩

/-- One more position is re-derived after others. -/
theorem Redrawn.rederive {s t : State} {l : List KeyPos} (h : Redrawn s t l) (q : KeyPos) :
    Redrawn s (t.rederive q) (l ++ [q]) := by
  have lamp : ∀ k, (t.rederive q).lampFor k = t.lampFor k := fun k =>
    State.lampFor_congr k (by simp) (by simp) (by simp)
  refine ⟨fun k => ?_, fun b => ?_⟩
  · rw [lamp]
    by_cases e : k = q
    · subst e
      simp [State.rederive]
    · have e' : q.1 ≠ k.1 := fun x => e (Fin.ext x.symm)
      have := h.1 k
      simp_all [State.rederive]
  · by_cases e : b = blockOf q
    · subst e
      simp [State.rederive]
    · have e' : (blockOf q).1 ≠ b.1 := fun x => e (Fin.ext x.symm)
      have := h.2 b
      have flag : dirtyFlag (t.rederive q).derived (t.rederive q).sent b = dirtyFlag t.derived t.sent b :=
        dirtyFlag_upd_other e
      rw [flag]
      simp_all [State.rederive]

/-! ## REPEAT_DUE (R88, R89) -/

theorem min_succ_max (n k : Nat) : (if n < k then n + 1 else n) = min (n + 1) (max k n) := by
  split <;> omega

theorem raiseCount_eq (n : Nat) : raiseCount n = min (n + 1) (max 65535 n) :=
  min_succ_max n _

section
variable {s : State} {q : KeyPos} {r : HeldRecord}

/-- In a set without two records for a position, a change of the record of a position writes that record. -/
theorem State.HeldLaw.map_record (h : s.HeldLaw) (m : r ∈ s.held) (f : HeldRecord → HeldRecord) :
    s.held.map (fun x => if x.pos = r.pos then f x else x) = s.held.map (fun x => if x.pos = r.pos then f r else x) := by
  refine List.map_congr_left fun x hx => ?_
  split
  next e => rw [List.inj_on_of_nodup_map h.distinct hx m e]
  next => rfl

theorem exec_repeatDue_reached {due : Time} (hr : s.heldAt q = some r)
    (now : s.deskTime = due ∨ 2550 < (due - s.deskTime).toNat) (hp : r.phase = .delay due) :
    exec (.repeatDue q) s = .next (s.dueAt q r due (fun f => tenths f.period)) := by
  have now : reached s.deskTime due Config.longestRepeat = true := (reached_iff _ _ _).mpr now
  show execRepeatDue q s = _
  simp only [execRepeatDue, hr, hp, if_pos now]

theorem exec_repeatDue_again {due : Time} {k : Nat} (hr : s.heldAt q = some r)
    (now : s.deskTime = due ∨ 2550 < (due - s.deskTime).toNat) (hp : r.phase = .repeating due k) :
    exec (.repeatDue q) s = .next (s.dueAt q r due (fun _ => k)) := by
  have now : reached s.deskTime due Config.longestRepeat = true := (reached_iff _ _ _).mpr now
  show execRepeatDue q s = _
  simp only [execRepeatDue, hr, hp, if_pos now]

theorem State.dueAt_repeats {i : ProfileId} {o : Opened} (hc : s.table[q].cls = .repeating i) (ho : r.openedTo = some o)
    (due : Time) (period : Profile → Nat) :
    s.dueAt q r due period = s.takeRepeat q r o s.profiles[i] due (period s.profiles[i]) := by
  simp only [State.dueAt, hc, ho]

theorem State.dueAt_stops (h : (∀ i, s.table[q].cls ≠ .repeating i) ∨ r.openedTo = none) (due : Time)
    (period : Profile → Nat) : s.dueAt q r due period = s.modifyHeld q HeldRecord.stopped := by
  unfold State.dueAt
  split
  next i o hc ho =>
    obtain h | h := h
    · exact absurd hc (h i)
    · rw [h] at ho
      cases ho
  next => rfl

end

/-- Settles O45: the phase gives the period in force, the binding and the record whether the due repeats. -/
theorem repeatDueRepeats : Obligations.RepeatDueRepeats := by
  intro s q r due law hr hq now hp
  subst hq
  have found := State.heldAt_of_mem law hr
  have taken : ∃ period : Profile → Nat, exec (.repeatDue r.pos) s = .next (s.dueAt r.pos r due period) ∧
      (r.phase = .delay due → ∀ f, period f = 10 * f.period.toNat) ∧ (∀ k, r.phase = .repeating due k → ∀ f, period f = k) := by
    obtain hp | ⟨k, hp⟩ := hp
    · exact ⟨_, exec_repeatDue_reached found now hp, fun _ _ => rfl, fun k e => by simp [hp] at e⟩
    · exact ⟨_, exec_repeatDue_again found now hp, fun e => by simp [hp] at e, fun k' e _ => by simp_all⟩
  obtain ⟨periodOf, taken, first, later⟩ := taken
  refine ⟨?repeats, fun stop => ?stops⟩
  case repeats =>
    intro i o period hc ho hfirst hlater count step halved
    have force : periodOf s.profiles[i] = period := by
      obtain hp | ⟨k, hp⟩ := hp
      · rw [first hp, hfirst hp]
      · rw [later k hp, hlater k hp]
    rw [State.dueAt_repeats hc ho, force] at taken
    refine ⟨_, taken, ⟨Machine.later due period, later_toNat _ _, ?_⟩, ?_, fun x hx => ?_⟩
    · rw [State.takeRepeat, State.modifyHeld_held, (State.offer_frame _ _ _).2.1, law.map_record hr]
      simp only [HeldRecord.repeated, raiseCount_eq]
      rfl
    · rw [show count = raiseCount r.repeatCount from (raiseCount_eq _).symm]
      exact (s.offer_offered o.host _).congr rfl rfl
    · cases x
      case held | queues | noteLow => exact absurd (by simp) hx
      all_goals simp [Part.Same]
  case stops =>
    rw [State.dueAt_stops stop] at taken
    refine ⟨_, taken, ?_, fun x hx => ?_⟩
    · rw [State.modifyHeld_held, law.map_record hr]
      rfl
    · cases x
      case held => exact absurd (by simp) hx
      all_goals rfl

/-! ## Edges taken (R63) -/

section
variable {s : State} {q : KeyPos} {live : Bool} {rest : List HandedEdge}

theorem isUp_of_up {x : Session} {i : Identity} {last : OrderKind} {poll : Option Time} (h : x = .up i last poll) :
    x.isUp = true := by
  subst h
  rfl

/-- An edge that is not live, or whose session is not UP, leaves the record and does nothing else. -/
theorem State.takeEdge_discarded {press : Bool} (act : State → State)
    (he : s.links[panelOf q].edges = ⟨press, q, live⟩ :: rest)
    (h : live = false ∨ ∀ i last poll, s.links[panelOf q].session ≠ .up i last poll) :
    s.takeEdge press q act = s.setLink (panelOf q) { s.links[panelOf q] with edges := rest } := by
  rw [State.takeEdge_front act he, if_neg]
  rw [Bool.and_eq_true]
  rintro ⟨hl, hu⟩
  obtain h | h := h
  · rw [h] at hl
    cases hl
  · rw [Session.isUp_false h] at hu
    cases hu

/-- A live edge of a session in UP acts. -/
theorem State.takeEdge_acts {press : Bool} (act : State → State) {i : Identity} {last : OrderKind} {poll : Option Time}
    (he : s.links[panelOf q].edges = ⟨press, q, true⟩ :: rest) (hu : s.links[panelOf q].session = .up i last poll) :
    s.takeEdge press q act = act (s.setLink (panelOf q) { s.links[panelOf q] with edges := rest }) := by
  rw [State.takeEdge_front act he, if_pos]
  rw [isUp_of_up hu]
  rfl

theorem exec_pressEdge (s : State) (q : KeyPos) :
    exec (.pressEdge q) s = .next (s.takeEdge true q (fun t => t.pressKey false q)) :=
  rfl

theorem exec_releaseEdge (s : State) (q : KeyPos) :
    exec (.releaseEdge q) s = .next (s.takeEdge false q (fun t => t.releaseKey false false q)) :=
  rfl

/-- A command that only takes the edge. -/
theorem onlyTakes {c : Instr} {n : LinkId} {l : LinkEngine} (h : exec c s = .next (s.setLink n l)) :
    ∃ t, exec c s = .next t ∧ t.links = upd s.links n l ∧ OnlyChanges s t [.links] := by
  refine ⟨_, h, rfl, fun x hx => ?_⟩
  cases x
  case links => exact absurd (by simp) hx
  all_goals rfl

end

/-! ## Press processing (R64 to R68) -/

section
variable {s : State} {q : KeyPos}

theorem State.pressKey_held (h : ∃ r ∈ s.held, r.pos = q) (resync : Bool) : s.pressKey resync q = s := by
  obtain ⟨r, hr, hq⟩ := h
  unfold State.pressKey
  cases e : s.heldAt q with
  | none => exact absurd hq (State.heldAt_none.mp e r hr)
  | some x => rfl

theorem State.pressKey_full_unowned (h : ∀ r ∈ s.held, r.pos ≠ q) (full : 16 ≤ s.held.length)
    (ho : s.table[q].owner = none) (resync : Bool) : s.pressKey resync q = s := by
  have full : ¬ s.held.length < Config.maxHeld := Nat.not_lt.mpr full
  simp only [State.pressKey, State.heldAt_none.mpr h, if_neg full, ho]

theorem State.pressKey_full_owned (h : ∀ r ∈ s.held, r.pos ≠ q) (full : 16 ≤ s.held.length) {k : Port}
    (ho : s.table[q].owner = some k) (resync : Bool) :
    s.pressKey resync q = s.offer k (s.keyReport .blocked q 0 resync false) := by
  have full : ¬ s.held.length < Config.maxHeld := Nat.not_lt.mpr full
  simp only [State.pressKey, State.heldAt_none.mpr h, if_neg full, ho]

/-- The set with a record made behind the newest (R64). -/
def State.withNew (s : State) (q : KeyPos) (resync : Bool) : State :=
  { s with held := s.held ++ [newRecord q s.deskTime resync] }

theorem State.pressKey_unowned (h : ∀ r ∈ s.held, r.pos ≠ q) (room : s.held.length < 16)
    (ho : s.table[q].owner = none) (resync : Bool) :
    s.pressKey resync q = (s.withNew q resync).rederive q := by
  have room : s.held.length < Config.maxHeld := room
  simp only [State.pressKey, State.heldAt_none.mpr h, if_pos room, ho]
  rfl

theorem State.pressKey_owned (h : ∀ r ∈ s.held, r.pos ≠ q) (room : s.held.length < 16) {k : Port}
    (ho : s.table[q].owner = some k) (resync : Bool) :
    s.pressKey resync q = ((s.withNew q resync).pressClass q k resync).rederive q := by
  have room : s.held.length < Config.maxHeld := room
  simp only [State.pressKey, State.heldAt_none.mpr h, if_pos room, ho]
  rfl

/-- The record just made, opened. -/
theorem State.openRecord_held {t : State} (h : ∀ r ∈ s.held, r.pos ≠ q) {resync : Bool}
    (ht : t.held = (s.withNew q resync).held) (k : Port) (due : Bool) (ph : Phase) (n : NoticeKind) (e : Half) :
    (t.openRecord q k due ph n e resync).held =
      s.held ++ [(newRecord q s.deskTime resync).opened k t.table[q].gen due ph] := by
  simp only [State.openRecord, (State.offer_frame _ _ _).2.1, State.modifyHeld_held, ht]
  exact map_append_made _ rfl h

theorem State.openRecord_offered (t : State) (k : Port) (due : Bool) (ph : Phase) (n : NoticeKind) (e : Half)
    (resync : Bool) : Offered t (t.openRecord q k due ph n e resync) k [t.keyReport n q e resync false] :=
  (State.offer_offered _ k _).of_same rfl rfl rfl rfl

/-- Whether the class owes a closing notice once its key is pressed (R66 to R68, R87). -/
def KeyClass.closes : KeyClass → Bool
  | .momentary => true
  | .repeating _ => true
  | .pressOnly => false
  | .toggle _ => false
  | .select _ => false

/-- The phase in which a press leaves the record of a class (R66, R87). -/
def State.openingPhase (s : State) : KeyClass → Phase
  | .repeating i => .delay (later s.deskTime (tenths s.profiles[i].delay))
  | .momentary => .held
  | .pressOnly => .held
  | .toggle _ => .held
  | .select _ => .held

/-- The opening notice of a class that is not SELECT, and the value it carries (R66, R67). -/
def KeyClass.opening : KeyClass → NoticeKind × Nat
  | .toggle l => (.toggled, (!l).toNat)
  | .momentary => (.press, 0)
  | .pressOnly => (.press, 0)
  | .repeating _ => (.press, 0)
  | .select _ => (.press, 0)

theorem State.setBinding_self (s : State) (q : KeyPos) : s.setBinding q s.table[q] = s := by
  simp only [State.setBinding, upd_get]

theorem Binding.pressed_same {b : Binding} (h : ∀ l, b.cls ≠ .toggle l) : b.pressed = b := by
  unfold Binding.pressed
  split
  next l _ e => exact absurd e (h l)
  next => rfl

/-- A press of a key that is not SELECT: its latch turns over where it has one, and its record is opened (R66, R67). -/
theorem State.pressClass_eq {k : Port} (ho : s.table[q].owner = some k) (hc : s.table[q].cls.group? = none)
    (resync : Bool) :
    s.pressClass q k resync = (s.setBinding q s.table[q].pressed).openRecord q k s.table[q].cls.closes
      (s.openingPhase s.table[q].cls) s.table[q].cls.opening.1 (countHalf s.table[q].cls.opening.2) resync := by
  cases cls : s.table[q].cls with
  | select g =>
    rw [cls] at hc
    cases hc
  | toggle l =>
    have pressed : s.table[q].pressed = { s.table[q] with cls := .toggle (!l) } := by
      simp only [Binding.pressed, ho, cls]
    simp only [State.pressClass, cls, State.pressToggle, pressed]
    rfl
  | momentary | pressOnly | repeating i =>
    have pressed : s.table[q].pressed = s.table[q] := Binding.pressed_same (by simp only [cls]; simp)
    simp only [State.pressClass, cls, pressed, State.setBinding_self]
    rfl

/-- The record a press gives a key that is not SELECT. -/
def State.pressedRecord (s : State) (q : KeyPos) (k : Port) (resync : Bool) : HeldRecord :=
  (newRecord q s.deskTime resync).opened k s.table[q].gen s.table[q].cls.closes (s.openingPhase s.table[q].cls)

/-- The opening notice of a press of a key that is not SELECT. -/
def State.openingReport (s : State) (q : KeyPos) (resync : Bool) : Report :=
  s.noticeOf s.table[q].cls.opening.1 q s.table[q].cls.opening.2 resync false

theorem Binding.pressed_eq (b : Binding) : b.pressed.gen = b.gen ∧ b.pressed.code = b.code ∧ b.pressed.owner = b.owner := by
  unfold Binding.pressed
  split <;> exact ⟨rfl, rfl, rfl⟩

/-- A press of an owned key that is not SELECT, with room (R64 to R67). -/
theorem State.pressKey_opens (h : ∀ r ∈ s.held, r.pos ≠ q) (room : s.held.length < 16) {k : Port}
    (ho : s.table[q].owner = some k) (hc : s.table[q].cls.group? = none) (resync : Bool) :
    let t := s.pressKey resync q
    t.table = upd s.table q s.table[q].pressed ∧ t.held = s.held ++ [s.pressedRecord q k resync] ∧
    Offered s t k [s.openingReport q resync] ∧ Redrawn s t [q] ∧
    OnlyChanges s t [.table, .held, .queues, .noteLow, .derived, .dirty] := by
  obtain ⟨gen, code, -⟩ := s.table[q].pressed_eq
  have press : s.pressKey resync q = ((((s.withNew q resync).setBinding q s.table[q].pressed).openRecord q k
      s.table[q].cls.closes (s.openingPhase s.table[q].cls) s.table[q].cls.opening.1
      (countHalf s.table[q].cls.opening.2) resync)).rederive q := by
    rw [State.pressKey_owned h room ho]
    congr 1
    exact State.pressClass_eq (s := s.withNew q resync) ho hc resync
  intro t
  simp only [t, press]
  have opened := State.openRecord_held (t := (s.withNew q resync).setBinding q s.table[q].pressed) h rfl k
    s.table[q].cls.closes (s.openingPhase s.table[q].cls) s.table[q].cls.opening.1 (countHalf s.table[q].cls.opening.2)
  have offered := ((s.withNew q resync).setBinding q s.table[q].pressed).openRecord_offered k (q := q)
    s.table[q].cls.closes (s.openingPhase s.table[q].cls) s.table[q].cls.opening.1 (countHalf s.table[q].cls.opening.2)
    resync
  have notice : ((s.withNew q resync).setBinding q s.table[q].pressed).keyReport s.table[q].cls.opening.1 q
      (countHalf s.table[q].cls.opening.2) resync false = s.openingReport q resync := by
    simp only [State.keyReport, State.setBinding_table, upd_self, gen, code]
    rfl
  simp only [State.setBinding_table, upd_self, gen] at opened
  rw [notice] at offered
  refine ⟨by simp [State.withNew], ?_, ?_, State.rederive_redrawn q (by simp [State.withNew]) (by simp [State.withNew]),
    fun x hx => ?_⟩
  · rw [(State.rederive_frame _ _).2.1]
    exact opened
  · exact (offered.of_same rfl rfl rfl rfl).congr (by simp) (by simp)
  · cases x
    case table | held | queues | noteLow | derived | dirty => exact absurd (by simp) hx
    all_goals simp [Part.Same, State.withNew]

end

/-- Settles O46: the edge, the record that may be there, the room, then the owner and the class. -/
theorem pressOpensARecord : Obligations.PressOpensARecord := by
  intro s q live rest he took made discards
  refine ⟨fun h => onlyTakes ((exec_pressEdge s q).trans (by rw [State.takeEdge_discarded _ he h])),
    fun i last poll hl hu => ?_⟩
  subst hl
  let u := s.setLink (panelOf q) { s.links[panelOf q] with edges := rest }
  have taken : exec (.pressEdge q) s = .next (u.pressKey false q) := by
    rw [exec_pressEdge, State.takeEdge_acts _ he hu]
  have onlyEdge : OnlyChanges s u [.links] := by
    intro x hx
    cases x
    case links => exact absurd (by simp) hx
    all_goals rfl
  have links : (u.pressKey false q).links = u.links := by simp
  refine ⟨fun h => ?already, fun absent => ⟨fun full => ⟨fun ho => ?fullUnowned, fun h ho => ?blocked⟩,
    fun room => ⟨fun ho => ?unowned, ?owned⟩⟩⟩
  case already =>
    rw [State.pressKey_held (s := u) h] at taken
    exact onlyTakes taken
  case fullUnowned =>
    rw [State.pressKey_full_unowned (s := u) absent full ho] at taken
    exact onlyTakes taken
  case blocked =>
    rw [State.pressKey_full_owned (s := u) absent full ho] at taken
    refine ⟨_, taken, by simp [took, u], (u.offer_offered h _).of_same rfl rfl rfl rfl,
      onlyEdge.trans (m := [.queues, .noteLow]) ?_ _ (by simp) (by simp)⟩
    intro x hx
    cases x
    case queues | noteLow => exact absurd (by simp) hx
    all_goals simp [Part.Same]
  case unowned =>
    rw [State.pressKey_unowned (s := u) absent room ho] at taken
    refine ⟨_, taken, by simp [took, u, State.withNew], by simp [State.withNew, newRecord, made, u],
      State.rederive_redrawn q rfl rfl, onlyEdge.trans (m := [.held, .derived, .dirty]) ?_ _ (by simp) (by simp)⟩
    intro x hx
    cases x
    case held | derived | dirty => exact absurd (by simp) hx
    all_goals simp [Part.Same, State.withNew]
  case owned =>
    intro h ho opened presses
    have opens := fun hc => State.pressKey_opens (s := u) absent room ho hc false
    have press : s.table[q].cls.group? = none → s.table[q].pressed = s.table[q] →
        s.table[q].cls.opening = (.press, 0) →
        presses s.table[q].cls.closes (s.openingPhase s.table[q].cls) := fun hc same kind => by
      obtain ⟨table, held, offered, drawn, only⟩ := opens hc
      refine ⟨_, taken, links, held, ?_, drawn,
        onlyEdge.trans (m := [.held, .queues, .noteLow, .derived, .dirty]) ?_ _ (by simp) (by simp)⟩
      · have notice : u.openingReport q false = s.noticeOf .press q 0 false false := by
          show s.noticeOf s.table[q].cls.opening.1 q s.table[q].cls.opening.2 false false = _
          rw [kind]
        rw [← notice]
        exact offered.of_same rfl rfl rfl rfl
      · intro x hx
        cases x
        case table =>
          refine table.trans ?_
          show upd s.table q s.table[q].pressed = s.table
          rw [same, upd_get]
        all_goals exact only _ (by simp_all)
    refine ⟨fun hc => ?momentary, fun hc => ?pressOnly, fun j hc => ?repeating, fun l hc => ?toggle⟩
    case momentary =>
      rw [hc] at press
      exact press rfl (Binding.pressed_same (by simp only [hc]; simp)) rfl
    case pressOnly =>
      rw [hc] at press
      exact press rfl (Binding.pressed_same (by simp only [hc]; simp)) rfl
    case repeating =>
      rw [hc] at press
      exact ⟨_, later_toNat s.deskTime (tenths s.profiles[j].delay),
        press rfl (Binding.pressed_same (by simp only [hc]; simp)) rfl⟩
    case toggle =>
      obtain ⟨table, held, offered, drawn, only⟩ := opens (by show s.table[q].cls.group? = none; rw [hc]; rfl)
      refine ⟨_, taken, links, ?_, ?_, ?_, drawn, onlyEdge.trans only _ (by simp) (by simp)⟩
      · have pressed : s.table[q].pressed = { s.table[q] with cls := .toggle (!l) } := by
          simp only [Binding.pressed, ho, hc]
        rw [← pressed]
        exact table
      · refine held.trans ?_
        show s.held ++ [s.pressedRecord q h false] = _
        rw [State.pressedRecord, hc]
        rfl
      · have notice : u.openingReport q false = s.noticeOf .toggled q (!l).toNat false false := by
          show s.noticeOf s.table[q].cls.opening.1 q s.table[q].cls.opening.2 false false = _
          rw [hc]
          rfl
        rw [← notice]
        exact offered.of_same rfl rfl rfl rfl

end Sys2Proof.Machine
end

section
/-! PROOF. The group rule at a press, and release processing (R68, R71, R102, R103). -/

namespace Sys2Proof.Machine

/-! ## The group rule (R102) -/

/-- What the oldest edge taken changes before it acts. -/
theorem onlyChanges_setLink (s : State) (n : LinkId) (l : LinkEngine) : OnlyChanges s (s.setLink n l) [.links] := by
  intro x hx
  cases x
  case links => exact absurd (by simp) hx
  all_goals rfl

section
variable {s : State} {q : KeyPos} {k : Port} {g : GroupId} {x : SelGroup}

/-- A press of the first member selected (R102). -/
theorem State.pressSelect_first (hg : s.groups[g] = some x) (hs : x.selected = none) (resync : Bool) :
    s.pressSelect q k g resync =
      (s.setGroup g (some { x with selected := some q })).openRecord q k false .held .selected (countHalf g.1) resync := by
  simp only [State.pressSelect, hg, hs]

/-- A press of another member than the selected one (R102). -/
theorem State.pressSelect_change (hg : s.groups[g] = some x) {old : KeyPos} (hs : x.selected = some old) (ho : old ≠ q)
    (resync : Bool) :
    s.pressSelect q k g resync =
      ((((s.setGroup g (some { x with selected := some q })).offer k
        ((s.setGroup g (some { x with selected := some q })).keyReport .deselected old (countHalf g.1) resync
          false)).openRecord q k false .held .selected (countHalf g.1) resync)).rederive old := by
  simp only [State.pressSelect, hg, hs, if_neg ho]

/-- The selected key of a STRICT group pressed again (R102). -/
theorem State.pressSelect_strict (hg : s.groups[g] = some x) (hs : x.selected = some q) (hm : x.mode = .strict)
    (resync : Bool) : s.pressSelect q k g resync = s := by
  simp only [State.pressSelect, hg, hs, hm, if_true]

/-- The selected key of a LOOSE group pressed again (R102). -/
theorem State.pressSelect_loose (hg : s.groups[g] = some x) (hs : x.selected = some q) (hm : x.mode = .loose)
    (resync : Bool) :
    s.pressSelect q k g resync = (s.setGroup g (some { x with selected := none })).offer k
      (s.keyReport .deselected q (countHalf g.1) resync false) := by
  simp only [State.pressSelect, hg, hs, hm, if_true]

theorem State.pressKey_select (h : ∀ r ∈ s.held, r.pos ≠ q) (room : s.held.length < 16)
    (ho : s.table[q].owner = some k) (hc : s.table[q].cls = .select g) (resync : Bool) :
    s.pressKey resync q = ((s.withNew q resync).pressSelect q k g resync).rederive q := by
  have cls : (s.withNew q resync).table[q].cls = .select g := hc
  rw [State.pressKey_owned h room ho, State.pressClass, cls]

end

/-- Settles O47: the selection of the group, then its mode. -/
theorem pressAppliesTheGroupRule : Obligations.PressAppliesTheGroupRule := by
  intro s q rest h g x i last poll he hu absent room ho hc hg made opened parts goes
  let u := s.setLink (panelOf q) { s.links[panelOf q] with edges := rest }
  let w := u.withNew q false
  have taken : exec (.pressEdge q) s = .next ((w.pressSelect q h g false).rederive q) := by
    rw [exec_pressEdge, State.takeEdge_acts _ he hu]
    exact congrArg _ (State.pressKey_select (s := u) absent room ho hc false)
  have links : ((w.pressSelect q h g false).rederive q).links = u.links := by simp [w, State.withNew]
  have parts_of : ∀ t : State, t = (w.pressSelect q h g false).rederive q → OnlyChanges s t parts := by
    rintro t rfl
    refine (onlyChanges_setLink s (panelOf q) { s.links[panelOf q] with edges := rest }).trans
      (m := [.held, .groups, .queues, .noteLow, .derived, .dirty]) ?_ parts (by simp [parts]) (by simp [parts])
    intro y hy
    cases y
    case held | groups | queues | noteLow | derived | dirty => exact absurd (by simp) hy
    all_goals simp [Part.Same, w, State.withNew, u]
  refine ⟨fun hs => ?first, fun old hs other => ?change, fun hs hm => ?loose, fun hs hm => ?strict⟩
  case first =>
    rw [State.pressSelect_first (s := w) hg hs] at taken links parts_of
    refine ⟨_, taken, links, by simp [w, u, State.withNew], ?_, ?_,
      State.rederive_redrawn q (by simp [w, u, State.withNew]) (by simp [w, u, State.withNew]), parts_of _ rfl⟩
    · rw [(State.rederive_frame _ _).2.1]
      exact State.openRecord_held (s := u) absent rfl h false .held .selected (countHalf g.1)
    · have selects := (w.setGroup g (some { x with selected := some q })).openRecord_offered h false .held .selected
        (countHalf g.1) false (q := q)
      exact (selects.of_same rfl rfl rfl rfl).congr (by simp) (by simp)
  case change =>
    rw [State.pressSelect_change (s := w) hg hs other] at taken links parts_of
    refine ⟨_, taken, links, by simp [w, u, State.withNew], ?_, ?_, ?_, parts_of _ rfl⟩
    · rw [(State.rederive_frame _ _).2.1, (State.rederive_frame _ _).2.1]
      exact State.openRecord_held (s := u) absent (by simp [w]) h false .held .selected (countHalf g.1)
    · have deselects := (w.setGroup g (some { x with selected := some q })).offer_offered h
        ((w.setGroup g (some { x with selected := some q })).keyReport .deselected old (countHalf g.1) false false)
      have selects := ((w.setGroup g (some { x with selected := some q })).offer h
        ((w.setGroup g (some { x with selected := some q })).keyReport .deselected old (countHalf g.1) false
          false)).openRecord_offered h false .held .selected (countHalf g.1) false (q := q)
      exact ((deselects.trans selects (by simp) (by simp)).of_same rfl rfl rfl rfl).congr (by simp) (by simp)
    · have none := Redrawn.nil (s := s) (t := (((w.setGroup g (some { x with selected := some q })).offer h
        ((w.setGroup g (some { x with selected := some q })).keyReport .deselected old (countHalf g.1) false
          false)).openRecord q h false .held .selected (countHalf g.1) false)) (by simp [w, u, State.withNew])
        (by simp [w, u, State.withNew])
      exact (none.rederive old).rederive q
  case loose =>
    rw [State.pressSelect_loose (s := w) hg hs hm] at taken links parts_of
    refine ⟨_, taken, links, by simp [w, u, State.withNew], ?_, ?_,
      State.rederive_redrawn q (by simp [w, u, State.withNew]) (by simp [w, u, State.withNew]), parts_of _ rfl⟩
    · simp [w, u, State.withNew, newRecord, made]
    · have deselects := (w.setGroup g (some { x with selected := none })).offer_offered h
        (w.keyReport .deselected q (countHalf g.1) false false)
      exact (deselects.of_same rfl rfl rfl rfl).congr (by simp) (by simp)
  case strict =>
    rw [State.pressSelect_strict (s := w) hg hs hm] at taken links
    refine ⟨_, taken, links, by simp [w, u, State.withNew, newRecord, made], State.rederive_redrawn q rfl rfl,
      (onlyChanges_setLink s (panelOf q) { s.links[panelOf q] with edges := rest }).trans
        (m := [.held, .derived, .dirty]) ?_ _ (by simp) (by simp)⟩
    intro y hy
    cases y
    case held | derived | dirty => exact absurd (by simp) hy
    all_goals simp [Part.Same, w, State.withNew, u]

/-! ## Release processing (R71) -/

section
variable {s : State} {q : KeyPos} {r : HeldRecord}

theorem State.releaseKey_absent (h : ∀ r ∈ s.held, r.pos ≠ q) (resync lost : Bool) : s.releaseKey resync lost q = s := by
  simp only [State.releaseKey, State.heldAt_none.mpr h]

theorem State.releaseKey_owed (h : s.heldAt q = some r) {o : Opened} (ho : r.openedTo = some o) (hc : r.closingDue = true)
    (resync lost : Bool) :
    s.releaseKey resync lost q = ((s.offer o.host (s.keyReport .release q (countHalf r.repeatCount)
      (resync || r.resync) lost)).removeHeld q).rederive q := by
  simp only [State.releaseKey, h, ho, hc, if_true]

theorem State.releaseKey_silent (h : s.heldAt q = some r) (hc : r.openedTo = none ∨ r.closingDue = false)
    (resync lost : Bool) : s.releaseKey resync lost q = (s.removeHeld q).rederive q := by
  simp only [State.releaseKey, h]
  cases ho : r.openedTo with
  | none => rfl
  | some o =>
    obtain e | e := hc
    · rw [e] at ho
      cases ho
    · simp only [e, Bool.false_eq_true, if_false]

end

/-- Settles O48: the edge, the record that may be there, then whether a closing notice is owed. -/
theorem releaseClosesTheRecord : Obligations.ReleaseClosesTheRecord := by
  intro s q live rest he law took discards removed
  refine ⟨fun h => onlyTakes ((exec_releaseEdge s q).trans (by rw [State.takeEdge_discarded _ he h])),
    fun i last poll hl hu => ?_⟩
  subst hl
  let u := s.setLink (panelOf q) { s.links[panelOf q] with edges := rest }
  have taken : exec (.releaseEdge q) s = .next (u.releaseKey false false q) := by
    rw [exec_releaseEdge, State.takeEdge_acts _ he hu]
  have links : (u.releaseKey false false q).links = u.links := by simp
  have onlyEdge : OnlyChanges s u [.links] := onlyChanges_setLink s (panelOf q) _
  have law' : u.HeldLaw := ⟨law.length, law.distinct⟩
  refine ⟨fun absent => ?absent, fun r hr hq => ⟨fun o ho hc => ?owed, fun hc => ?silent⟩⟩
  case absent =>
    rw [State.releaseKey_absent (s := u) absent] at taken
    exact onlyTakes taken
  case owed =>
    have found : u.heldAt q = some r := hq ▸ State.heldAt_of_mem law' hr
    rw [State.releaseKey_owed found ho hc] at taken links
    refine ⟨_, taken, links, by simp [u, removed], ?_, State.rederive_redrawn q (by simp [u]) (by simp [u]),
      onlyEdge.trans (m := [.held, .queues, .noteLow, .derived, .dirty]) ?_ _ (by simp) (by simp)⟩
    · have closes := u.offer_offered o.host (u.keyReport .release q (countHalf r.repeatCount) (false || r.resync) false)
      exact (closes.of_same rfl rfl rfl rfl).congr (by simp) (by simp)
    · intro x hx
      cases x
      case held | queues | noteLow | derived | dirty => exact absurd (by simp) hx
      all_goals simp [Part.Same]
  case silent =>
    have found : u.heldAt q = some r := hq ▸ State.heldAt_of_mem law' hr
    rw [State.releaseKey_silent found hc] at taken links
    refine ⟨_, taken, links, by simp [u, removed], State.rederive_redrawn q (by simp [u]) (by simp [u]),
      onlyEdge.trans (m := [.held, .derived, .dirty]) ?_ _ (by simp) (by simp)⟩
    intro x hx
    cases x
    case held | derived | dirty => exact absurd (by simp) hx
    all_goals simp [Part.Same]

end Sys2Proof.Machine
end

section
/-! PROOF. The links: SET LINKS, the timers, good replies in UP and SYNCING, LOST, and acceptances (R132, R149 to R166,
R183). -/

namespace Sys2Proof.Machine

/-! ## SET LINKS (R166, R183) -/

theorem State.allTaken_iff (s : State) : s.allTaken = true ↔ ∀ n : LinkId, s.links[n].handed = none := by
  simp only [State.allTaken, List.all_eq_true, List.mem_finRange, true_imp_iff, Option.isNone_iff_eq_none]

theorem linksOk_iff (e w : Byte) : linksOk e w = true ↔ 2 ≤ e.toNat ∧ e.toNat ≤ 20 ∧ w ≠ 0 := by
  simp [linksOk, and_assoc]

theorem State.workingOnSetLinks_of {s : State} {m e w : Byte} (hw : WorkingOn s 0 (.setLinks m e w)) :
    s.workingOnSetLinks = true := by
  simp only [State.workingOnSetLinks, State.requestOf_working hw]

/-- SET LINKS is answered once every change has been taken, and waits until then. -/
theorem State.settleLinks_eq {s : State} {m e w : Byte} (hw : WorkingOn s 0 (.setLinks m e w)) :
    s.settleLinks = if s.allTaken then s.answer 0 .ok [] else s := by
  simp only [State.settleLinks, State.workingOnSetLinks_of hw, Bool.and_true]

section
variable {s : State} {m e w : Byte}

theorem exec_setLinks_taken (hw : WorkingOn s 0 (.setLinks m e w)) (ht : ∀ n : LinkId, s.links[n].handed = none) :
    exec .setLinks s = .next (if linksOk e w then (s.writeLinks m e w).settleLinks else s.answer 0 .badAttr []) := by
  show execSetLinks s = _
  simp only [execSetLinks, State.requestOf_working hw, if_pos (s.allTaken_iff.mpr ht)]

/-- What each link is handed as the mask is written (R166). -/
theorem State.writeLinks_link (s : State) (m e w : Byte) (n : LinkId) :
    (s.writeLinks m e w).links[n] = { s.links[n] with handed := handedChange s.mask m n } := by
  simp [State.writeLinks]

theorem handedChange_eq (old new : Byte) (n : LinkId) :
    handedChange old new n = if new.getLsbD n.1 = old.getLsbD n.1 then none else some (new.getLsbD n.1) := by
  simp only [handedChange, eq_comm]

theorem exists_changed {old new : Byte} (h : new ≠ old) : ∃ n : LinkId, handedChange old new n ≠ none := by
  by_contra none
  simp only [not_exists, not_not, handedChange_eq] at none
  refine h (BitVec.eq_of_getLsbD_eq fun i hi => ?_)
  by_contra differs
  simpa [differs] using none ⟨i, hi⟩

end

/-- Settles O49: the operands, then whether any place of the mask changed. -/
theorem setLinksHandsTheChanges : Obligations.SetLinksHandsTheChanges := by
  refine fun s m e w hw ht => ⟨fun bad => ?refused, fun low high wait => ?accepted⟩
  case refused =>
    have bad : ¬ linksOk e w = true := by
      rw [linksOk_iff]
      rintro ⟨low, high, wait⟩
      exact bad.elim (by omega) fun bad => bad.elim (by omega) wait
    exact onlyAnswers_of hw rfl ((exec_setLinks_taken hw ht).trans (by rw [if_neg bad]))
  case accepted =>
    have ok : linksOk e w = true := (linksOk_iff e w).mpr ⟨low, high, wait⟩
    have hw' : WorkingOn (s.writeLinks m e w) 0 (.setLinks m e w) := hw.congr (by simp)
    have taken := exec_setLinks_taken hw ht
    rw [if_pos ok, State.settleLinks_eq hw'] at taken
    have taken_iff : (s.writeLinks m e w).allTaken = true ↔ m = s.mask := by
      rw [State.allTaken_iff]
      simp only [State.writeLinks_link]
      refine ⟨fun none => by_contra fun h => ?_, fun h n => ?_⟩
      · obtain ⟨n, hn⟩ := exists_changed h
        exact hn (none n)
      · rw [handedChange_eq, h, if_pos rfl]
    have links : ∀ (t : State), t.links = (s.writeLinks m e w).links → ∀ n : LinkId, t.links[n] = { s.links[n] with
        handed := if m.getLsbD n.1 = s.mask.getLsbD n.1 then none else some (m.getLsbD n.1) } := fun t ht n => by
      rw [ht, State.writeLinks_link, handedChange_eq]
    by_cases h : m = s.mask
    · rw [if_pos (taken_iff.mpr h), State.answer_working hw'] at taken
      refine ⟨_, taken, rfl, rfl, rfl, links _ rfl, fun _ => rfl, fun ne => absurd h ne, fun x hx => ?_⟩
      cases x
      case mask | pollInterval | yieldWait | links | ports => exact absurd (by simp) hx
      all_goals rfl
    · rw [if_neg (mt taken_iff.mp h)] at taken
      refine ⟨_, taken, rfl, rfl, rfl, links _ rfl, fun e => absurd e h, fun _ => rfl, fun x hx => ?_⟩
      cases x
      case mask | pollInterval | yieldWait | links | ports => exact absurd (by simp) hx
      all_goals rfl

/-! ## Link engines written one after another -/

theorem State.setLink_setLink (s : State) (n : LinkId) (l m : LinkEngine) :
    (s.setLink n l).setLink n m = s.setLink n m := by
  simp only [State.setLink, upd_upd]

theorem State.setLink_self (s : State) (n : LinkId) : s.setLink n s.links[n] = s := by
  simp only [State.setLink, upd_get]

theorem State.setLink_link (s : State) (n : LinkId) (l : LinkEngine) : (s.setLink n l).links[n] = l :=
  upd_self _ _ _

section
variable (s : State) (n : LinkId) (l : LinkEngine)

/-- An order begun by an engine just written. -/
theorem State.setLink_beginOrder (o : LinkOrder) : (s.setLink n l).beginOrder n o =
    s.setLink n { l with inFlight := some ⟨o, l.failures + 1⟩, lck := .clocking } := by
  rw [State.beginOrder, State.setLink_link, State.setLink_setLink]

theorem State.probe_eq : s.probe n = s.setLink n
    { s.links[n] with
      session := .probing (later s.deskTime Config.probeTime)
      inFlight := some ⟨.identify, s.links[n].failures + 1⟩, lck := .clocking } := by
  rw [State.probe, State.setSession, State.setLink_beginOrder]

theorem State.setLink_noteLast (k : OrderKind) :
    (s.setLink n l).noteLast n k = s.setLink n { l with session := l.session.withLast k } := by
  rw [State.noteLast, State.setSession, State.setLink_link, State.setLink_setLink]

end

/-! ## Timers (R156, R160, R164) -/

section
variable {s : State} {n : LinkId}

/-- A command that has a link enter PROBING. -/
theorem probes_of {c : Instr} (h : exec c s = .next (s.probe n)) : ∃ t, exec c s = .next t ∧
    (∃ d : Time, d.toNat = (s.deskTime.toNat + 250) % 65536 ∧
      t.links = upd s.links n
        { s.links[n] with
          session := .probing d, inFlight := some ⟨.identify, s.links[n].failures + 1⟩, lck := .clocking }) ∧
    OnlyChanges s t [.links] := by
  rw [State.probe_eq] at h
  exact ⟨_, h, ⟨_, later_toNat _ _, rfl⟩, onlyChanges_setLink _ _ _⟩

theorem exec_probeTimer_probing {d : Time} (hs : s.links[n].session = .probing d) (hf : s.links[n].inFlight = none) :
    exec (.probeTimer n) s = .next (if reached s.deskTime d Config.probeTime then s.probe n else s) := by
  show execProbeTimer n s = _
  simp only [execProbeTimer, hs, hf, Option.isNone_none, Bool.true_and]

theorem exec_holdoffTimer_holdoff {d : Time} (hs : s.links[n].session = .holdoff d) :
    exec (.holdoffTimer n) s = .next (if reached s.deskTime d Config.holdoffTime then s.probe n else s) := by
  show execHoldoffTimer n s = _
  simp only [execHoldoffTimer, hs]

theorem exec_poll_up {i : Identity} {last : OrderKind} {start : Option Time} (hs : s.links[n].session = .up i last start)
    (hf : s.links[n].inFlight = none) :
    exec (.poll n) s = .next (if s.pollDue start then
      s.setLink n { s.links[n] with
        session := .up i last (some s.deskTime)
        inFlight := some ⟨.poll s.links[n].bitL, s.links[n].failures + 1⟩, lck := .clocking } else s) := by
  show execPoll n s = _
  simp only [execPoll, hs, hf, Option.isNone_none, Bool.true_and, State.setSession, State.setLink_beginOrder]

theorem State.pollDue_iff (s : State) (start : Option Time) :
    s.pollDue start = true ↔ ∀ x ∈ start, s.pollInterval.toNat ≤ (s.deskTime - x).toNat := by
  cases start <;> simp [State.pollDue, passed]

end

/-- Settles O51: each timer by whether it has run out. -/
theorem timersBeginOrders : Obligations.TimersBeginOrders := by
  intro s n probes
  refine ⟨fun d hs hf => ?probe, fun d hs => ?holdoff, fun i last start hs hf => ?poll⟩
  case probe =>
    have taken := exec_probeTimer_probing hs hf
    refine ⟨fun due => probes_of ?_, fun early close => ?_⟩
    · have due : reached s.deskTime d Config.probeTime = true := (reached_iff _ _ _).mpr due
      rw [taken, if_pos due]
    · have early : ¬ reached s.deskTime d Config.probeTime = true := not_reached early close
      exact taken.trans (by rw [if_neg early])
  case holdoff =>
    have taken := exec_holdoffTimer_holdoff hs
    refine ⟨fun due => probes_of ?_, fun early close => ?_⟩
    · have due : reached s.deskTime d Config.holdoffTime = true := (reached_iff _ _ _).mpr due
      rw [taken, if_pos due]
    · have early : ¬ reached s.deskTime d Config.holdoffTime = true := not_reached early close
      exact taken.trans (by rw [if_neg early])
  case poll =>
    have taken := exec_poll_up hs hf
    refine ⟨fun due => ?_, fun ⟨x, hx, early⟩ => ?_⟩
    · rw [if_pos ((s.pollDue_iff start).mpr due)] at taken
      exact ⟨_, taken, rfl, onlyChanges_setLink _ _ _⟩
    · refine taken.trans ?_
      rw [if_neg]
      rw [State.pollDue_iff]
      exact fun h => absurd (h x hx) (Nat.not_le.mpr early)

/-! ## The order that follows a good reply (R130, R149, R160) -/

section
variable {s : State} {n : LinkId} {l : LinkEngine}

/-- In SYNCING the IMAGE order follows. -/
theorem State.nextOrder_syncing {c : SyncCause} {i : Identity} {last : OrderKind} (h : l.session = .syncing c i last) :
    (s.setLink n l).nextOrder n =
      s.setLink n { l with inFlight := some ⟨.image, l.failures + 1⟩, lck := .clocking } := by
  have h' : (s.setLink n l).links[n].session = .syncing c i last := by rw [State.setLink_link, h]
  simp only [State.nextOrder, h', State.setLink_beginOrder]

theorem State.nextOrder_up {i : Identity} {last : OrderKind} {start : Option Time} (h : l.session = .up i last start) :
    (s.setLink n l).nextOrder n = (s.setLink n l).chooseUp n last := by
  have h' : (s.setLink n l).links[n].session = .up i last start := by rw [State.setLink_link, h]
  simp only [State.nextOrder, h']

/-- After a LAMP the POLL is waited for. -/
theorem State.chooseUp_lamp (s : State) (n : LinkId) : s.chooseUp n .lamp = s :=
  if_pos rfl

theorem State.lowestDirty_none (h : ∀ b : Fin 16, s.dirty[panelBlock n b] = false) : s.lowestDirty n = none := by
  rw [State.lowestDirty, List.find?_eq_none]
  intro b _
  rw [h b]
  exact Bool.false_ne_true

theorem State.lowestDirty_some {b : Fin 16} (h : s.dirty[panelBlock n b] = true)
    (first : ∀ b' : Fin 16, b' < b → s.dirty[panelBlock n b'] = false) : s.lowestDirty n = some b :=
  finRange_find?_eq_some h first

theorem State.chooseUp_clean {last : OrderKind} (h : ∀ b : Fin 16, s.dirty[panelBlock n b] = false) :
    s.chooseUp n last = s := by
  unfold State.chooseUp
  split
  next => rfl
  next => rw [State.lowestDirty_none h]

/-- A dirty block has a LAMP begun for the lowest, unless the last order was a LAMP. -/
theorem State.chooseUp_dirty {last : OrderKind} (hl : last ≠ .lamp) {b : Fin 16} (h : s.dirty[panelBlock n b] = true)
    (first : ∀ b' : Fin 16, b' < b → s.dirty[panelBlock n b'] = false) :
    (s.setLink n l).chooseUp n last = s.setLink n
      { l with inFlight := some ⟨.lamp b (s.blockStates (panelBlock n b)), l.failures + 1⟩, lck := .clocking } := by
  have lowest : (s.setLink n l).lowestDirty n = some b := State.lowestDirty_some (s := s.setLink n l) h first
  rw [State.chooseUp, if_neg hl, lowest]
  exact State.setLink_beginOrder s n l _

theorem State.blockStates_get (s : State) (b : Fin 128) (j : Fin 8) :
    (s.blockStates b)[j] = s.derived[lampPos b j] := by
  simp [State.blockStates]

theorem State.goodExchange_eq (s : State) (n : LinkId) :
    s.goodExchange n = s.setLink n { s.links[n] with inFlight := none, lck := .high, failures := 0 } :=
  rfl

/-- A reply that fits the order in flight is a good reply. -/
theorem State.endExchange_good {x : Exchange} {r : Reply} (hx : s.links[n].inFlight = some x)
    (hr : fits x.order r = true) : s.endExchange n r =
      (s.setLink n { s.links[n] with inFlight := none, lck := .high, failures := 0 }).goodReply n x r := by
  simp only [State.endExchange, hx, hr, if_true, State.goodExchange_eq]

end

section
variable {s : State} {n : LinkId} {l : LinkEngine} {x : Exchange}

/-- NOTHING and EDGE in a session leave the engine with POLL as the last order and the edge taken or not, and the next
order follows. -/
theorem State.goodReply_nothing :
    (s.setLink n l).goodReply n x .nothing = (s.setLink n { l with session := l.session.withLast .poll }).nextOrder n := by
  rw [State.goodReply, State.setLink_noteLast]

theorem State.goodReply_edge (bitS press : Bool) (key : BitVec 7) :
    (s.setLink n l).goodReply n x (.edge bitS press key) =
      (s.setLink n ({ l with session := l.session.withLast .poll }.takeEdge n bitS press key)).nextOrder n := by
  rw [State.goodReply, State.setLink_noteLast, State.setLink_link, State.setLink_setLink]

theorem State.goodReply_accept {b : Fin 16} {v : Vector Lamp 8} (hx : x.order = .lamp b v) :
    (s.setLink n l).goodReply n x .accept = (s.setLink n { l with
      session := l.session.withLast .lamp, acceptances := l.acceptances ++ [⟨b, v⟩] }).nextOrder n := by
  rw [State.goodReply, State.setLink_noteLast, hx, State.handAcceptance, State.setLink_link, State.setLink_setLink]

/-- A duplicate edge changes nothing (R151). -/
theorem LinkEngine.takeEdge_duplicate (l : LinkEngine) (n : LinkId) (press : Bool) (key : BitVec 7) :
    l.takeEdge n l.bitL press key = l :=
  if_pos rfl

/-- An edge whose bit differs from L is accepted, and handed on where its key exists (R151). -/
theorem LinkEngine.takeEdge_accepted {bitS : Bool} (h : bitS ≠ l.bitL) (n : LinkId) (press : Bool) (key : BitVec 7) :
    l.takeEdge n bitS press key = { l with
      bitL := bitS
      edges := if key.toNat < l.session.keyCount then
        l.edges ++ [⟨press, posOf n ⟨key.toNat, key.isLt⟩, l.session.isUp⟩] else l.edges } :=
  if_neg h

end

/-- Settles O53: each reply to the order in flight, then the order that the session calls for. -/
theorem goodRepliesInUp : Obligations.GoodRepliesInUp := by
  refine ⟨?up, ?syncing⟩
  case up =>
    intro s n i last start k hs goesOn
    have goes : ∀ (c : Instr) (l : LinkEngine) (bitL : Bool) (edges : List HandedEdge),
        l = { s.links[n] with
          session := .up i .poll start, failures := 0, inFlight := none, lck := .high, bitL := bitL, edges := edges } →
        exec c s = .next ((s.setLink n l).nextOrder n) → goesOn c bitL edges := by
      rintro c l bitL edges rfl taken
      rw [State.nextOrder_up rfl] at taken
      refine ⟨_, taken, ⟨fun clean => ?_, fun b dirty first => ?_⟩, ?_⟩
      · rw [State.chooseUp_clean (s := s.setLink n _) clean]
        rfl
      · rw [State.chooseUp_dirty (by decide) dirty first]
        exact ⟨_, s.blockStates_get _, rfl⟩
      · intro x hx
        cases x
        case links => exact absurd (by simp) hx
        all_goals simp [Part.Same]
    refine ⟨fun a hf => ⟨?nothing, fun bitS press key => ⟨fun same => ?duplicate, fun differs => ?accepted⟩⟩,
      fun b v hf => ?accept⟩
    case nothing =>
      refine goes _ _ _ _ ?_ (congrArg _ ((State.endExchange_good hf rfl).trans State.goodReply_nothing))
      simp only [hs, Session.withLast]
    case duplicate =>
      refine goes _ _ _ _ ?_ (congrArg _ ((State.endExchange_good hf rfl).trans (State.goodReply_edge bitS press key)))
      subst same
      simp only [hs, Session.withLast]
      exact LinkEngine.takeEdge_duplicate _ n press key
    case accepted =>
      have taken := congrArg Host.Outcome.next (α := State) (β := Out)
        ((State.endExchange_good hf rfl).trans (State.goodReply_edge bitS press key))
      refine ⟨fun big => goes _ _ _ _ ?_ taken, fun small => goes _ _ _ _ ?_ taken⟩
      · rw [LinkEngine.takeEdge_accepted (by exact differs)]
        have none : ¬ key.toNat < i.keyCount := Nat.not_lt.mpr big
        simp only [hs, Session.withLast, Session.keyCount, Session.identity, Option.map_some, Option.getD_some,
          if_neg none]
      · rw [LinkEngine.takeEdge_accepted (by exact differs)]
        simp only [hs, Session.withLast, Session.keyCount, Session.identity, Option.map_some, Option.getD_some,
          if_pos small, Session.isUp]
    case accept =>
      have taken := congrArg Host.Outcome.next (α := State) (β := Out)
        ((State.endExchange_good hf rfl).trans (State.goodReply_accept rfl))
      simp only [hs, Session.withLast] at taken
      rw [State.nextOrder_up rfl, State.chooseUp_lamp] at taken
      exact ⟨_, taken, rfl, onlyChanges_setLink _ _ _⟩
  case syncing =>
    intro s n cause i last k hs synchronises l
    have goes : ∀ (c : Instr) (m : LinkEngine) (answered : OrderKind) (bitL : Bool) (edges : List HandedEdge)
        (acceptances : List Acceptance),
        m = { l with
          session := .syncing cause i answered, failures := 0, inFlight := none, lck := .high, bitL := bitL
          edges := edges, acceptances := acceptances } →
        exec c s = .next ((s.setLink n m).nextOrder n) → synchronises c answered bitL edges acceptances := by
      rintro c m answered bitL edges acceptances rfl taken
      rw [State.nextOrder_syncing rfl] at taken
      exact ⟨_, taken, rfl, onlyChanges_setLink _ _ _⟩
    refine ⟨fun a hf => ⟨?nothing, fun bitS press key => ⟨fun same => ?duplicate, fun differs => ?accepted⟩⟩,
      fun b v hf => ?accept⟩
    case nothing =>
      refine goes _ _ _ _ _ _ ?_ (congrArg _ ((State.endExchange_good hf rfl).trans State.goodReply_nothing))
      simp only [hs, Session.withLast, l]
    case duplicate =>
      refine goes _ _ _ _ _ _ ?_
        (congrArg _ ((State.endExchange_good hf rfl).trans (State.goodReply_edge bitS press key)))
      subst same
      simp only [hs, Session.withLast, l]
      exact LinkEngine.takeEdge_duplicate _ n press key
    case accepted =>
      have taken := congrArg Host.Outcome.next (α := State) (β := Out)
        ((State.endExchange_good hf rfl).trans (State.goodReply_edge bitS press key))
      refine ⟨fun big => goes _ _ _ _ _ _ ?_ taken, fun small => goes _ _ _ _ _ _ ?_ taken⟩
      · rw [LinkEngine.takeEdge_accepted (by exact differs)]
        have none : ¬ key.toNat < i.keyCount := Nat.not_lt.mpr big
        simp only [hs, Session.withLast, Session.keyCount, Session.identity, Option.map_some, Option.getD_some,
          if_neg none, l]
      · rw [LinkEngine.takeEdge_accepted (by exact differs)]
        simp only [hs, Session.withLast, Session.keyCount, Session.identity, Option.map_some, Option.getD_some,
          if_pos small, Session.isUp, l]
    case accept =>
      refine goes _ _ _ _ _ _ ?_ (congrArg _ ((State.endExchange_good hf rfl).trans (State.goodReply_accept rfl)))
      simp only [hs, Session.withLast, l]

/-! ## LOST (R162) -/

/-- Settles O54: from UP the session passes to SYNCING and the sent states are forgotten; in SYNCING only the failures
change. -/
theorem lostReplyResynchronises : Obligations.LostReplyResynchronises := by
  intro s n a k hf image
  have taken : exec (.lost n) s =
      .next ((s.setLink n { s.links[n] with inFlight := none, lck := .high, failures := 0 }).takeLost n) :=
    congrArg _ (State.endExchange_good hf rfl)
  refine ⟨fun i last start hs => ?up, fun cause i last hs => ?syncing⟩
  case up =>
    have lost : (s.setLink n { s.links[n] with inFlight := none, lck := .high, failures := 0 }).takeLost n =
        (s.setLink n { image (.syncing .lost i .poll) with
          edges := s.links[n].edges.map (fun e => { e with live := false }) }).forgetSent n := by
      have up : (s.setLink n { s.links[n] with inFlight := none, lck := .high, failures := 0 }).links[n].session =
          .up i last start := by rw [State.setLink_link, hs]
      simp only [State.takeLost, up]
      rw [State.leaveUp, State.setLink_link, State.setLink_setLink]
      exact State.nextOrder_syncing (s := s.forgetSent n) rfl
    rw [lost] at taken
    refine ⟨_, taken, rfl, State.forgetSent_sent _ n, State.forgetSent_dirty _ n, fun x hx => ?_⟩
    cases x
    case links | sent | dirty => exact absurd (by simp) hx
    all_goals simp [Part.Same]
  case syncing =>
    have lost : (s.setLink n { s.links[n] with inFlight := none, lck := .high, failures := 0 }).takeLost n =
        s.setLink n (image (.syncing cause i last)) := by
      have syncing : (s.setLink n { s.links[n] with inFlight := none, lck := .high, failures := 0 }).links[n].session =
          .syncing cause i last := by rw [State.setLink_link, hs]
      simp only [State.takeLost, syncing]
      rw [State.nextOrder_syncing (l := { s.links[n] with inFlight := none, lck := .high, failures := 0 }) hs]
      simp only [image, hs]
    rw [lost] at taken
    exact ⟨_, taken, rfl, onlyChanges_setLink _ _ _⟩

/-! ## Acceptances (R132) -/

/-- A walk that writes entries leaves an entry that it does not name. -/
theorem foldl_upd_other {α : Type} {n k : Nat} (f : Fin k → Fin n) (v : Fin k → α) (l : List (Fin k)) (x : Vector α n)
    {q : Fin n} (h : ∀ i ∈ l, f i ≠ q) : (l.foldl (fun y i => upd y (f i) (v i)) x)[q] = x[q] := by
  induction l generalizing x with
  | nil => rfl
  | cons i l ih =>
    rw [List.foldl_cons, ih _ fun j hj => h j (by simp [hj]), upd_ne _ _ _ _ (h i (by simp))]

/-- A walk that writes entries once each leaves each as it was written. -/
theorem foldl_upd_mem {α : Type} {n k : Nat} {f : Fin k → Fin n} (hf : Function.Injective f) (v : Fin k → α)
    {l : List (Fin k)} (hl : l.Nodup) (x : Vector α n) {i : Fin k} (hi : i ∈ l) :
    (l.foldl (fun y i => upd y (f i) (v i)) x)[f i] = v i := by
  induction l generalizing x with
  | nil => cases hi
  | cons j l ih =>
    obtain ⟨hj, hl⟩ := List.nodup_cons.mp hl
    rw [List.foldl_cons]
    obtain rfl | hi := List.mem_cons.mp hi
    · have apart : ∀ m ∈ l, f m ≠ f i := fun m hm e => hj (hf e ▸ hm)
      rw [foldl_upd_other f v l _ apart, upd_self]
    · exact ih hl _ hi

theorem lampPos_injective (b : Fin 128) : Function.Injective (lampPos b) := by
  intro i j e
  have := congrArg Fin.val e
  simp only [lampPos] at this
  exact Fin.ext (by omega)

theorem blockOf_lampPos (b : Fin 128) (i : Fin 8) : blockOf (lampPos b i) = b := by
  apply Fin.ext
  simp only [blockOf, lampPos]
  omega

/-- A block is dirty exactly where a lamp of it differs from its sent state (R128). -/
theorem dirtyFlag_iff (d : Vector Lamp 1024) (x : Vector (Option Lamp) 1024) (b : Fin 128) :
    dirtyFlag d x b = true ↔ ∃ j : Fin 8, x[lampPos b j] ≠ some d[lampPos b j] := by
  simp only [dirtyFlag, List.any_eq_true, List.mem_finRange, true_and, bne_iff_ne]

/-- What an acceptance writes (R132). -/
theorem State.writeSent_spec (s : State) (n : LinkId) (a : Acceptance) :
    let t := s.writeSent n a
    (∀ j : Fin 8, t.sent[lampPos (panelBlock n a.block) j] = some a.states[j]) ∧
    (∀ q : KeyPos, blockOf q ≠ panelBlock n a.block → t.sent[q] = s.sent[q]) ∧
    t.dirty = upd s.dirty (panelBlock n a.block) (dirtyFlag s.derived t.sent (panelBlock n a.block)) := by
  have walk : (s.writeSent n a).sent = (List.finRange 8).foldl
      (fun v i => upd v (lampPos (panelBlock n a.block) i) (some a.states[i])) s.sent := rfl
  refine ⟨fun j => ?_, fun q hq => ?_, rfl⟩
  · rw [walk]
    exact foldl_upd_mem (lampPos_injective _) (fun i => some a.states[i]) (List.nodup_finRange 8) _
      (List.mem_finRange j)
  · rw [walk]
    exact foldl_upd_other (lampPos (panelBlock n a.block)) (fun i => some a.states[i]) _ _
      fun i _ e => hq (e ▸ blockOf_lampPos _ i)

/-- Settles O56: written where the session is UP, discarded elsewhere. -/
theorem acceptanceWritesSent : Obligations.AcceptanceWritesSent := by
  intro s n a rest ha took
  have taken : exec (.lampAcceptance n) s = .next
      (if s.links[n].session.isUp then (s.setLink n { s.links[n] with acceptances := rest }).writeSent n a
        else s.setLink n { s.links[n] with acceptances := rest }) := by
    show execLampAcceptance n s = _
    simp only [execLampAcceptance, ha]
  refine ⟨fun ⟨i, last, start, hs⟩ => ?written, fun hs => ?discarded⟩
  case written =>
    rw [if_pos (isUp_of_up hs)] at taken
    obtain ⟨mine, others, dirty⟩ := (s.setLink n { s.links[n] with acceptances := rest }).writeSent_spec n a
    refine ⟨_, taken, by simp [took], mine, others, ?_, fun b hb => ?_, fun x hx => ?_⟩
    · rw [dirty, upd_self, dirtyFlag_iff]
      refine exists_congr fun j => not_congr ?_
      rw [mine j, Option.some.injEq]
      exact eq_comm
    · rw [dirty]
      exact upd_ne _ _ _ _ (Ne.symm hb)
    · cases x
      case links | sent | dirty => exact absurd (by simp) hx
      all_goals simp [Part.Same]
  case discarded =>
    rw [Session.isUp_false hs, if_neg Bool.false_ne_true] at taken
    exact ⟨_, taken, rfl, onlyChanges_setLink _ _ _⟩

end Sys2Proof.Machine
end

section
/-! PROOF. What becomes of the notice queues: an offer keeps the law of a queue, and every shared operation that offers
notices is a chain of offers with the NOTE lines following (R112 to R115, R121). -/

namespace Sys2Proof.Machine

/-! ## One offer and the law of a queue -/

section
variable {now : Time} {l : List Notice} {r : Report}

theorem raiseDropped_kind (n : Notice) : (raiseDropped n).kind = n.kind := by
  unfold raiseDropped
  split <;> rfl

theorem raiseDropped_extra {n : Notice} (low : 1 ≤ n.extra.toNat) (high : n.extra.toNat ≤ 255) :
    1 ≤ (raiseDropped n).extra.toNat ∧ (raiseDropped n).extra.toNat ≤ 255 := by
  by_cases isOver : n.kind = .overrun
  · by_cases less : n.extra.toNat < Config.maxDropped
    · have raised : (n.extra + 1).toNat = n.extra.toNat + 1 := by
        rw [BitVec.toNat_add]
        exact Nat.mod_eq_of_lt (by simp only [Config.maxDropped] at less; simp; omega)
      simp only [raiseDropped, if_pos isOver, if_pos less]
      simp only [Config.maxDropped] at less
      omega
    · simp only [raiseDropped, if_pos isOver, if_neg less]
      exact ⟨low, high⟩
  · rw [raiseDropped, if_neg isOver]
    exact ⟨low, high⟩

/-- A queue without an OVERRUN has room for one. -/
theorem QueueLaw.short (h : QueueLaw l) (none : ∀ n ∈ l, n.kind ≠ .overrun) : l.length ≤ 23 := by
  by_contra long
  obtain ⟨n, hn, e⟩ := h.full (by have := h.length; omega)
  exact none n (List.mem_of_getLast? hn) e

theorem QueueLaw.counted (h : QueueLaw l) : QueueLaw (l.map raiseDropped) where
  length := by simpa using h.length
  overrunLast n hn := by
    rw [← List.map_dropLast] at hn
    obtain ⟨m, hm, rfl⟩ := List.mem_map.mp hn
    rw [raiseDropped_kind]
    exact h.overrunLast m hm
  full e := by
    obtain ⟨n, hn, k⟩ := h.full (by simpa using e)
    refine ⟨raiseDropped n, ?_, (raiseDropped_kind n).trans k⟩
    rw [List.getLast?_map]
    exact Option.mem_map_of_mem _ hn
  dropped n hn k := by
    obtain ⟨m, hm, rfl⟩ := List.mem_map.mp hn
    obtain ⟨low, high⟩ := h.dropped m hm ((raiseDropped_kind m).symm.trans k)
    exact raiseDropped_extra low high

/-- A queue that is one entry longer than one without an OVERRUN. -/
theorem QueueLaw.appended (none : ∀ n ∈ l, n.kind ≠ .overrun) {n : Notice} (hl : l.length + 1 ≤ 24)
    (full : l.length + 1 = 24 → n.kind = .overrun)
    (dropped : n.kind = .overrun → 1 ≤ n.extra.toNat ∧ n.extra.toNat ≤ 255) : QueueLaw (l ++ [n]) where
  length := by simpa using hl
  overrunLast m hm := none m (by simpa using hm)
  full e := ⟨n, by simp, full (by simpa using e)⟩
  dropped m hm k := by
    obtain hm | hm := List.mem_append.mp hm
    · exact absurd k (none m hm)
    · rw [List.mem_singleton.mp hm] at k ⊢
      exact dropped k

/-- Every offer but that of an OVERRUN keeps the law of a queue (R112, R113, R115). -/
theorem QueueLaw.offerTo (h : QueueLaw l) (hr : r.kind ≠ .overrun) (now : Time) : QueueLaw (offerTo now l r) := by
  by_cases counted : ∃ n ∈ l, n.kind = .overrun
  · rw [offerTo_counted counted]
    exact h.counted
  have none : ∀ n ∈ l, n.kind ≠ .overrun := fun n hn e => counted ⟨n, hn, e⟩
  have short := h.short none
  by_cases renews : renewsLast l r = true
  · rw [offerTo_renewed none renews]
    obtain ⟨n, hn, -, hk, -⟩ := renewsLast_iff.mp renews
    obtain ⟨older, rfl⟩ : ∃ older, l = older ++ [n] := ⟨l.dropLast, (List.dropLast_append_getLast? n hn).symm⟩
    rw [renewLast_append]
    simp only [List.length_append, List.length_singleton] at short
    refine QueueLaw.appended (fun m hm => none m (by simp [hm])) (by omega) (fun e => by omega) fun k => ?_
    exact absurd (hk.symm.trans k) (by decide)
  · rw [offerTo_added none renews]
    split
    next => exact QueueLaw.appended none (by omega) (fun _ => rfl) fun _ => by simp [overrunNotice]
    next room =>
      simp only [Config.maxQueue] at room
      exact QueueLaw.appended none (by omega) (fun e => by omega) fun k => absurd k hr

/-- No offer shortens a queue. -/
theorem length_le_offerTo (now : Time) (l : List Notice) (r : Report) : l.length ≤ (offerTo now l r).length := by
  unfold offerTo
  split
  next => simp
  next =>
    split
    next renews =>
      obtain ⟨n, hn, -⟩ := renewsLast_iff.mp renews
      obtain ⟨older, rfl⟩ : ∃ older, l = older ++ [n] := ⟨l.dropLast, (List.dropLast_append_getLast? n hn).symm⟩
      simp [renewLast_append]
    next => split <;> simp

end

/-! ## Chains of offers -/

/-- A queue after any number of offers, none of an OVERRUN. -/
inductive Grown (l : List Notice) : List Notice → Prop
  | refl : Grown l l
  | offered {m : List Notice} (now : Time) (r : Report) : Grown l m → r.kind ≠ .overrun → Grown l (offerTo now m r)

section
variable {l m k : List Notice}

theorem Grown.trans (h : Grown l m) (g : Grown m k) : Grown l k := by
  induction g with
  | refl => exact h
  | offered now r _ hr ih => exact ih.offered now r hr

theorem Grown.queueLaw (g : Grown l m) (h : QueueLaw l) : QueueLaw m := by
  induction g with
  | refl => exact h
  | offered now r _ hr ih => exact ih.offerTo hr now

theorem Grown.length_le (g : Grown l m) : l.length ≤ m.length := by
  induction g with
  | refl => exact Nat.le_refl _
  | offered now r _ _ ih => exact ih.trans (length_le_offerTo now _ r)

end

/-- From `s` to `t` notices are offered and nothing else happens to the queues; the NOTE line follows each queue that
changes, and line modes are kept. -/
structure Queued (s t : State) : Prop where
  grown : ∀ p : Port, Grown s.queues[p] t.queues[p]
  note : ∀ p : Port, (t.queues[p] = s.queues[p] ∧ t.noteLow[p] = s.noteLow[p]) ∨
    t.noteLow[p] = lineDrive t.ports[p].lineMode t.queues[p]
  mode : ∀ p : Port, t.ports[p].lineMode = s.ports[p].lineMode

section
variable {s t u : State}

theorem Queued.of_same (queues : t.queues = s.queues) (lines : t.noteLow = s.noteLow)
    (mode : ∀ p : Port, t.ports[p].lineMode = s.ports[p].lineMode) : Queued s t :=
  ⟨fun p => queues ▸ .refl, fun _ => .inl ⟨by rw [queues], by rw [lines]⟩, mode⟩

theorem Queued.of_ports (queues : t.queues = s.queues) (lines : t.noteLow = s.noteLow) (ports : t.ports = s.ports) :
    Queued s t :=
  .of_same queues lines fun p => by rw [ports]

theorem Queued.refl (s : State) : Queued s s :=
  .of_ports rfl rfl rfl

/-- What touches neither queues nor NOTE lines nor ports offers nothing more. -/
theorem Queued.next (h : Queued s t) (queues : u.queues = t.queues) (lines : u.noteLow = t.noteLow)
    (ports : u.ports = t.ports) : Queued s u where
  grown p := by
    rw [queues]
    exact h.grown p
  note p := by
    rw [queues, lines, ports]
    exact h.note p
  mode p := by
    rw [ports]
    exact h.mode p

theorem Queued.trans (h : Queued s t) (k : Queued t u) : Queued s u where
  grown p := (h.grown p).trans (k.grown p)
  mode p := (k.mode p).trans (h.mode p)
  note p := by
    rcases k.note p with ⟨queue, line⟩ | line
    · rcases h.note p with ⟨queue', line'⟩ | line'
      · exact .inl ⟨queue.trans queue', line.trans line'⟩
      · exact .inr (by rw [line, line', queue, k.mode p])
    · exact .inr line

theorem Queued.foldl {α : Type} {g : State → α → State} (hg : ∀ t x, Queued t (g t x)) (l : List α) (s : State) :
    Queued s (l.foldl g s) := by
  induction l generalizing s with
  | nil => exact .refl s
  | cons x xs ih => exact (hg s x).trans (ih _)

theorem Queued.noteLaw (h : Queued s t) (n : s.NoteLaw) : t.NoteLaw := by
  intro p
  rcases h.note p with ⟨queue, line⟩ | line
  · rw [line, queue, h.mode p]
    exact n p
  · exact line

theorem Queued.queueLaw (h : Queued s t) (q : ∀ p : Port, QueueLaw s.queues[p]) (p : Port) : QueueLaw t.queues[p] :=
  (h.grown p).queueLaw (q p)

end

/-! ## The operations that offer -/

section
variable (s : State)

theorem State.offer_queued (p : Port) {r : Report} (hr : r.kind ≠ .overrun) : Queued s (s.offer p r) where
  mode _ := by simp
  grown k := by
    by_cases e : p = k
    · subst e
      simp only [State.offer, State.driveNote, upd_self]
      exact .offered _ r .refl hr
    · simp only [State.offer, State.driveNote, upd_ne _ _ _ _ e]
      exact .refl
  note k := by
    by_cases e : p = k
    · subst e
      exact .inr (by simp [State.offer, State.driveNote])
    · exact .inl (by simp only [State.offer, State.driveNote, upd_ne _ _ _ _ e, and_self])

/-- A notice about a key, of any kind but OVERRUN, offered after others. -/
theorem Queued.key {s t : State} (h : Queued s t) (p : Port) (x : State) {k : NoticeKind} (hk : k ≠ .overrun)
    (q : KeyPos) (e : Half) (resync lost : Bool) : Queued s (t.offer p (x.keyReport k q e resync lost)) :=
  h.trans (t.offer_queued p hk)

/-- A notice of the yield unit, of any kind but OVERRUN, offered after others. -/
theorem Queued.yield {s t : State} (h : Queued s t) (p : Port) {k : NoticeKind} (hk : k ≠ .overrun)
    (q : KeyPos) (b : Binding) (e : Half) : Queued s (t.offer p (yieldReport k q b e)) :=
  h.trans (t.offer_queued p hk)

theorem Queued.answer {s t : State} (h : Queued s t) (p : Port) (st : StatusCode) (d : List Byte) :
    Queued s (t.answer p st d) :=
  h.trans (.of_same (by simp) (by simp) fun k => (t.answer_settings p k st d).1)

theorem Queued.answerGranted {s t : State} (h : Queued s t) (p : Port) (q : KeyPos) : Queued s (t.answerGranted p q) :=
  h.answer p .granted _

theorem State.withdraw_queued (announce : Bool) (q : KeyPos) : Queued s (s.withdraw announce q) := by
  unfold State.withdraw
  split
  next => exact .refl s
  next r _ =>
    split
    next => exact .refl s
    next o _ =>
      split
      · have told := (Queued.refl s).key o.host s (k := .withdrawn) (by decide) q (countHalf r.repeatCount) r.resync false
        exact told.next (by simp) (by simp) (by simp)
      · exact .of_ports (by simp) (by simp) (by simp)

theorem State.releaseKey_queued (resync lost : Bool) (q : KeyPos) : Queued s (s.releaseKey resync lost q) := by
  unfold State.releaseKey
  split
  next => exact .refl s
  next r _ =>
    split
    next o _ =>
      split
      · have told := (Queued.refl s).key o.host s (k := .release) (by decide) q (countHalf r.repeatCount)
          (resync || r.resync) lost
        exact told.next (by simp) (by simp) (by simp)
      · exact .of_ports (by simp) (by simp) (by simp)
    next => exact .of_ports (by simp) (by simp) (by simp)

theorem State.leaveGroup_queued (announce : Bool) (q : KeyPos) : Queued s (s.leaveGroup announce q) := by
  have written : ∀ g x, Queued s (s.setGroup g x) := fun g x => .of_ports rfl rfl rfl
  unfold State.leaveGroup
  split
  next => exact .refl s
  next g _ =>
    split
    next => exact .refl s
    next grp _ =>
      split
      next =>
        split
        next h _ =>
          split
          · exact (written g _).key h _ (by decide) q _ false true
          · exact written g _
        next => exact written g _
      next => exact written g _

theorem State.grant_queued (e : Option AskId) (k h : Port) (a : AttrSet) (q : KeyPos) :
    Queued s (s.grant e k h a q) := by
  have left := (s.withdraw_queued true q).trans ((s.withdraw true q).leaveGroup_queued true q)
  have told := left.yield h (k := .yielded) (by decide) q s.table[q] (countHalf k.1)
  have written : Queued s ((((((s.withdraw true q).leaveGroup true q).offer h
      (yieldReport .yielded q s.table[q] (countHalf k.1))).bindTo k a q).joinGroup q).removeAsk e) :=
    told.next (by simp) (by simp) (by simp)
  exact (written.answerGranted k q).next (by simp [State.grant]) (by simp [State.grant]) (by simp [State.grant])

/-- The notice of a grant that a release brings about. -/
theorem State.releasedNotice_queued (announce : Bool) (a : Ask) (b : Binding) (q : KeyPos) :
    Queued s (if announce then s.offer a.holder (yieldReport .yielded q b (countHalf a.asker.1)) else s) := by
  split
  · exact (Queued.refl s).yield a.holder (by decide) q b _
  · exact .refl s

theorem State.grantReleased_queued (announce : Bool) (b : Binding) (q : KeyPos) :
    Queued s (s.grantReleased announce b q) := by
  unfold State.grantReleased
  split
  next => exact .refl s
  next i a _ =>
    have told := s.releasedNotice_queued announce a b q
    have written := told.next (u := ((State.bindTo _ a.asker a.set q).joinGroup q).removeAsk (some i))
      (by simp; rfl) (by simp) (by simp)
    exact (written.answerGranted a.asker q).next (by simp) (by simp) (by simp)

theorem State.releasePos_queued (announce : Bool) (q : KeyPos) : Queued s (s.releasePos announce q) := by
  have left := (s.withdraw_queued announce q).trans ((s.withdraw announce q).leaveGroup_queued announce q)
  have unbound : Queued s (((s.withdraw announce q).leaveGroup announce q).unbind q) :=
    left.next (by simp) (by simp) (by simp)
  exact (unbound.trans (State.grantReleased_queued _ announce s.table[q] q)).next (by simp [State.releasePos])
    (by simp [State.releasePos]) (by simp [State.releasePos])

theorem State.replacePos_queued (a : AttrSet) (q : KeyPos) : Queued s (s.replacePos a q) := by
  unfold State.replacePos
  split
  · exact .of_ports (by simp) (by simp) (by simp)
  · exact (s.leaveGroup_queued true q).next (by simp) (by simp) (by simp)

theorem State.endAsk_queued (i : AskId) (a : Ask) (st : StatusCode) : Queued s (s.endAsk i a st) := by
  have removed : Queued s (s.removeAsk (some i)) := .of_ports (by simp) (by simp) (by simp)
  exact removed.answer a.asker st []

theorem State.closeAsk_queued (i : AskId) (a : Ask) (st : StatusCode) (why : CloseReason) (b : Binding) :
    Queued s (s.closeAsk i a st why b) :=
  (s.endAsk_queued i a st).yield a.holder (by decide) a.pos b _

theorem State.endAskOn_queued (q : KeyPos) (st : StatusCode) : Queued s (s.endAskOn q st) := by
  unfold State.endAskOn
  split
  · exact .refl s
  · exact s.endAsk_queued _ _ st

theorem State.resetAskOn_queued (q : KeyPos) (b : Binding) : Queued s (s.resetAskOn q b) := by
  unfold State.resetAskOn
  split
  · exact .refl s
  · exact s.closeAsk_queued _ _ _ _ b

theorem State.clearPos_queued (q : KeyPos) : Queued s (s.clearPos q) := by
  unfold State.clearPos
  split
  · exact .refl s
  · have unbound : Queued s ((s.withdraw true q).unbind q) :=
      (s.withdraw_queued true q).next (by simp) (by simp) (by simp)
    exact (unbound.trans (State.resetAskOn_queued _ q s.table[q])).next (by simp) (by simp) (by simp)

theorem State.leavePos_queued (p : Port) (q : KeyPos) : Queued s (State.leavePos p s q) := by
  unfold State.leavePos
  split
  · exact s.releasePos_queued false q
  · exact .refl s

theorem State.openRecord_queued (q : KeyPos) (h : Port) (due : Bool) (ph : Phase) {k : NoticeKind} (hk : k ≠ .overrun)
    (e : Half) (resync : Bool) : Queued s (s.openRecord q h due ph k e resync) := by
  have opened : Queued s (s.modifyHeld q fun r => r.opened h s.table[q].gen due ph) := .of_ports rfl rfl rfl
  exact opened.key h s hk q e resync false

theorem State.pressSelect_queued (q : KeyPos) (h : Port) (g : GroupId) (resync : Bool) :
    Queued s (s.pressSelect q h g resync) := by
  have written : ∀ x, Queued s (s.setGroup g x) := fun x => .of_ports rfl rfl rfl
  unfold State.pressSelect
  split
  next => exact .refl s
  next =>
    split
    next => exact (written _).trans (State.openRecord_queued _ q h false .held (by decide) _ resync)
    next old _ =>
      split
      next =>
        split
        next => exact .refl s
        next => exact (written _).key h s (by decide) q _ resync false
      next =>
        extract_lets s1 s2
        have told : Queued s s2 := (written _).key h s1 (by decide) old _ resync false
        exact (told.trans (s2.openRecord_queued q h false .held (k := .selected) (by decide) (countHalf g.1) resync)).next
          (by simp) (by simp) (by simp)

theorem State.pressClass_queued (q : KeyPos) (h : Port) (resync : Bool) : Queued s (s.pressClass q h resync) := by
  unfold State.pressClass
  split
  next => exact s.openRecord_queued q h true .held (by decide) 0 resync
  next => exact s.openRecord_queued q h false .held (by decide) 0 resync
  next => exact s.openRecord_queued q h true _ (by decide) 0 resync
  next l _ =>
    have turned : Queued s (s.setBinding q { s.table[q] with cls := .toggle (!l) }) := .of_ports rfl rfl rfl
    exact turned.trans (State.openRecord_queued _ q h false .held (by decide) _ resync)
  next g _ => exact s.pressSelect_queued q h g resync

theorem State.pressKey_queued (resync : Bool) (q : KeyPos) : Queued s (s.pressKey resync q) := by
  by_cases held : ∃ r ∈ s.held, r.pos = q
  · rw [State.pressKey_held held]
    exact .refl s
  have none : ∀ r ∈ s.held, r.pos ≠ q := fun r hr e => held ⟨r, hr, e⟩
  have made : Queued s (s.withNew q resync) := .of_ports rfl rfl rfl
  by_cases room : s.held.length < 16
  · cases ho : s.table[q].owner with
    | none =>
      rw [State.pressKey_unowned none room ho]
      exact made.next (by simp) (by simp) (by simp)
    | some h =>
      rw [State.pressKey_owned none room ho]
      exact (made.trans (State.pressClass_queued _ q h resync)).next (by simp) (by simp) (by simp)
  · have full : 16 ≤ s.held.length := by omega
    cases ho : s.table[q].owner with
    | none =>
      rw [State.pressKey_full_unowned none full ho]
      exact .refl s
    | some h =>
      rw [State.pressKey_full_owned none full ho]
      exact (Queued.refl s).key h s (by decide) q 0 resync false

end

end Sys2Proof.Machine
end

section
/-! PROOF. What each change of one position does, field by field: the groups it leaves and joins, its binding record, its
held record, the ask pending on it, the port it answers. -/

namespace Sys2Proof.Machine

/-! ## Groups (R97, R104) -/

/-- A group that the member at `q` has left. -/
def SelGroup.left (x : SelGroup) (q : KeyPos) : SelGroup :=
  { x with count := x.count - 1, selected := if x.selected = some q then none else x.selected }

/-- A group that a member has joined. -/
def SelGroup.joined (x : SelGroup) : SelGroup :=
  { x with count := x.count + 1 }

section
variable (s : State)

theorem State.setGroup_group (g k : GroupId) (x : Option SelGroup) :
    (s.setGroup g x).groups[k] = if g = k then x else s.groups[k] := by
  by_cases e : g = k
  · subst e
    rw [State.setGroup_groups, upd_self, if_pos rfl]
  · rw [State.setGroup_groups, upd_ne _ _ _ _ e, if_neg e]

/-- A member that leaves an OPEN group leaves it without the member. -/
theorem State.leaveGroup_groups {q : KeyPos} {g : GroupId} {x : SelGroup} (named : s.table[q].cls.group? = some g)
    (hx : s.groups[g] = some x) (announce : Bool) :
    (s.leaveGroup announce q).groups = upd s.groups g (some (x.left q)) := by
  by_cases sel : x.selected = some q
  · have left : x.left q = { x with count := x.count - 1, selected := none } := by rw [SelGroup.left, if_pos sel]
    rw [left]
    simp only [State.leaveGroup, named, hx, if_pos sel]
    cases s.table[q].owner <;> cases announce <;> simp
  · have left : x.left q = { x with count := x.count - 1 } := by rw [SelGroup.left, if_neg sel]
    simp only [State.leaveGroup, named, hx, if_neg sel, left, State.setGroup_groups]

theorem State.leaveGroup_free {q : KeyPos} (h : ∀ g, s.table[q].cls.group? = some g → s.groups[g] = none)
    (announce : Bool) : s.leaveGroup announce q = s := by
  cases named : s.table[q].cls.group? with
  | none => simp only [State.leaveGroup, named]
  | some g => simp only [State.leaveGroup, named, h g named]

theorem State.joinGroup_groups {q : KeyPos} {g : GroupId} {x : SelGroup} (named : s.table[q].cls.group? = some g)
    (hx : s.groups[g] = some x) : (s.joinGroup q).groups = upd s.groups g (some x.joined) := by
  simp only [State.joinGroup, named, hx]
  rfl

theorem State.joinGroup_free {q : KeyPos} (h : ∀ g, s.table[q].cls.group? = some g → s.groups[g] = none) :
    s.joinGroup q = s := by
  cases named : s.table[q].cls.group? with
  | none => simp only [State.joinGroup, named]
  | some g => simp only [State.joinGroup, named, h g named]

/-- An entry of a table after one entry is replaced by its image. -/
theorem upd_map {α : Type} {n : Nat} {v w : Vector (Option α) n} {i : Fin n} {x : α} {f : α → α} (hx : v[i] = some x)
    (hw : w = upd v i (some (f x))) (k : Fin n) : w[k] = if i = k then v[k].map f else v[k] := by
  subst hw
  by_cases e : i = k
  · subst e
    rw [upd_self, if_pos rfl, hx]
    rfl
  · rw [upd_ne _ _ _ _ e, if_neg e]

theorem State.leaveGroup_group (announce : Bool) (q : KeyPos) (g : GroupId) :
    (s.leaveGroup announce q).groups[g] =
      if s.table[q].cls.group? = some g then s.groups[g].map (·.left q) else s.groups[g] := by
  by_cases isOpen : ∃ k x, s.table[q].cls.group? = some k ∧ s.groups[k] = some x
  · obtain ⟨k, x, named, hx⟩ := isOpen
    rw [upd_map (f := (·.left q)) hx (s.leaveGroup_groups named hx announce) g, named]
    simp only [Option.some.injEq]
  · have free : ∀ k, s.table[q].cls.group? = some k → s.groups[k] = none := fun k named =>
      Option.eq_none_iff_forall_ne_some.mpr fun x hx => isOpen ⟨k, x, named, hx⟩
    rw [State.leaveGroup_free s free]
    split
    next named => rw [free g named]; rfl
    next => rfl

theorem State.joinGroup_group (q : KeyPos) (g : GroupId) :
    (s.joinGroup q).groups[g] =
      if s.table[q].cls.group? = some g then s.groups[g].map SelGroup.joined else s.groups[g] := by
  by_cases isOpen : ∃ k x, s.table[q].cls.group? = some k ∧ s.groups[k] = some x
  · obtain ⟨k, x, named, hx⟩ := isOpen
    rw [upd_map (f := SelGroup.joined) hx (s.joinGroup_groups named hx) g, named]
    simp only [Option.some.injEq]
  · have free : ∀ k, s.table[q].cls.group? = some k → s.groups[k] = none := fun k named =>
      Option.eq_none_iff_forall_ne_some.mpr fun x hx => isOpen ⟨k, x, named, hx⟩
    rw [State.joinGroup_free s free]
    split
    next named => rw [free g named]; rfl
    next => rfl

end

/-! ## Binding records -/

section
variable (s : State)

theorem State.setBinding_self_table (q : KeyPos) (b : Binding) : (s.setBinding q b).table[q] = b :=
  upd_self _ _ _

theorem State.setBinding_other_table {q k : KeyPos} (h : k ≠ q) (b : Binding) :
    (s.setBinding q b).table[k] = s.table[k] :=
  upd_ne _ _ _ _ (Ne.symm h)

theorem State.replacePos_table (a : AttrSet) (q : KeyPos) :
    (s.replacePos a q).table = upd s.table q (s.table[q].replace a) := by
  unfold State.replacePos
  split <;> simp

theorem State.replacePos_group (a : AttrSet) (q : KeyPos) (g : GroupId) :
    (s.replacePos a q).groups[g] =
      if s.table[q].cls.group? = a.cls.group? then s.groups[g]
      else if s.table[q].cls.group? = some g then s.groups[g].map (·.left q)
      else if a.cls.group? = some g then s.groups[g].map SelGroup.joined else s.groups[g] := by
  unfold State.replacePos
  split
  next same => simp only [State.rederive_frame, State.setBinding_groups]
  next differs =>
    have kept : (s.table[q].replace a).cls.group? = a.cls.group? := by
      unfold Binding.replace replaceClass
      split
      next l m h1 h2 => rw [h1, h2] at differs; exact absurd rfl differs
      next => rfl
    simp only [(State.rederive_frame _ _).2.2.2.1, State.joinGroup_group, State.setBinding_self_table,
      State.setBinding_groups, (State.leaveGroup_frame _ _ _).1, kept, State.leaveGroup_group]
    by_cases old : s.table[q].cls.group? = some g
    · rw [if_pos old, if_pos old, if_neg fun e => differs (old.trans e.symm)]
    · rw [if_neg old, if_neg old]

theorem State.acquire_group (p : Port) (a : AttrSet) (q : KeyPos) (g : GroupId) :
    (s.acquire p a q).groups[g] =
      if a.cls.group? = some g then s.groups[g].map SelGroup.joined else s.groups[g] := by
  have written : (s.bindTo p a q).table[q] = s.table[q].take p a := upd_self _ _ _
  rw [State.acquire, (State.rederive_frame _ _).2.2.2.1, State.joinGroup_group, written]
  rfl

/-- What a change of owner to `p` under set `a` leaves of a binding whose old owner it has left. -/
theorem State.grant_table (e : Option AskId) (p h : Port) (a : AttrSet) (q : KeyPos) :
    (s.grant e p h a q).table = upd s.table q (s.table[q].take p a) := by
  simp [State.grant]

theorem State.grant_group (e : Option AskId) (p h : Port) (a : AttrSet) (q : KeyPos) (g : GroupId) :
    (s.grant e p h a q).groups[g] =
      let y := if s.table[q].cls.group? = some g then s.groups[g].map (·.left q) else s.groups[g]
      if a.cls.group? = some g then y.map SelGroup.joined else y := by
  have written : ∀ x : State, (x.bindTo p a q).table[q] = x.table[q].take p a := fun x => upd_self _ _ _
  simp only [State.grant, (State.rederive_frame _ _).2.2.2.1, (State.answerGranted_frame _ _ _).2.2.2.1,
    (State.removeAsk_frame _ _).2.2.2.1, State.joinGroup_group, written, (State.bindTo_frame _ _ _ _).2.2.1,
    (State.offer_frame _ _ _).2.2.2.1, State.leaveGroup_group, (State.withdraw_frame _ _ _).1,
    (State.withdraw_frame _ _ _).2.2.1]
  rfl

theorem State.grant_asks (e : Option AskId) (p h : Port) (a : AttrSet) (q : KeyPos) :
    (s.grant e p h a q).asks = (s.removeAsk e).asks := by
  cases e <;> simp [State.grant, State.removeAsk]

end

/-! ## Answers -/

section
variable {s t : State}

/-- What an answer does to the ports is read from the ports alone. -/
theorem State.answer_ports_congr (h : t.ports = s.ports) (p : Port) (st : StatusCode) (d : List Byte) :
    (t.answer p st d).ports = (s.answer p st d).ports := by
  unfold State.answer
  rw [h]
  split <;> simp [h]

theorem State.grant_ports (s : State) (e : Option AskId) (p h : Port) (a : AttrSet) (q : KeyPos) :
    (s.grant e p h a q).ports = (s.answer p .granted [s.table[q].gen + 1]).ports := by
  have gen : ∀ x : State, x.table[q].gen = s.table[q].gen → ((((x.bindTo p a q).joinGroup q).removeAsk e).table[q]).gen =
      s.table[q].gen + 1 := fun x hx => by
    simp only [State.removeAsk_frame, State.joinGroup_frame, State.bindTo_table, upd_self, Binding.take, hx]
  unfold State.grant
  extract_lets b s2 s3 s4
  rw [(State.rederive_frame _ _).2.2.2.2.2.2.2.2.2.2.1, State.answerGranted, gen s3 (by simp [s3, s2])]
  exact State.answer_ports_congr (by simp [s4, s3, s2]) p _ _

/-- No port becomes WORKING, and none WORKING works on another request. -/
def WorkShrinks (s t : State) : Prop :=
  ∀ (p : Port) (r : Request), WorkingOn t p r → WorkingOn s p r

theorem WorkShrinks.refl (s : State) : WorkShrinks s s :=
  fun _ _ h => h

theorem WorkShrinks.trans {u : State} (h : WorkShrinks s t) (k : WorkShrinks t u) : WorkShrinks s u :=
  fun p r w => h p r (k p r w)

theorem WorkShrinks.of_ports (h : t.ports = s.ports) : WorkShrinks s t :=
  fun _ _ w => w.congr h.symm

theorem WorkShrinks.next {u : State} (h : WorkShrinks s t) (k : u.ports = t.ports) : WorkShrinks s u :=
  h.trans (.of_ports k)

theorem WorkShrinks.answer (h : WorkShrinks s t) (p : Port) (st : StatusCode) (d : List Byte) :
    WorkShrinks s (t.answer p st d) := by
  refine h.trans fun k r w => ?_
  by_cases e : p = k
  · subst e
    by_cases working : ∃ r, WorkingOn t p r
    · obtain ⟨r', hr'⟩ := working
      rw [WorkingOn, State.answer_working hr', State.setPort_ports, upd_self] at w
      cases w
    · rwa [State.answer_not_working (fun r hr => working ⟨r, hr⟩)] at w
  · rwa [WorkingOn, State.answer_other t e] at w

theorem WorkShrinks.foldl {α : Type} {g : State → α → State} (hg : ∀ t x, WorkShrinks t (g t x)) (l : List α) (s : State) :
    WorkShrinks s (l.foldl g s) := by
  induction l generalizing s with
  | nil => exact .refl s
  | cons x xs ih => exact (hg s x).trans (ih _)

end

section
variable (s : State)

theorem State.endAsk_workShrinks (i : AskId) (a : Ask) (st : StatusCode) : WorkShrinks s (s.endAsk i a st) :=
  (WorkShrinks.of_ports (t := s.removeAsk (some i)) (by simp)).answer a.asker st []

theorem State.endAskOn_workShrinks (q : KeyPos) (st : StatusCode) : WorkShrinks s (s.endAskOn q st) := by
  unfold State.endAskOn
  split
  · exact .refl s
  · exact s.endAsk_workShrinks _ _ st

theorem State.resetAskOn_workShrinks (q : KeyPos) (b : Binding) : WorkShrinks s (s.resetAskOn q b) := by
  unfold State.resetAskOn
  split
  next => exact .refl s
  next i a _ => exact (s.endAsk_workShrinks i a .reset).next (by simp [State.closeAsk])

theorem State.grant_workShrinks (e : Option AskId) (p h : Port) (a : AttrSet) (q : KeyPos) :
    WorkShrinks s (s.grant e p h a q) :=
  ((WorkShrinks.refl s).answer p .granted [s.table[q].gen + 1]).next (s.grant_ports e p h a q)

theorem State.grantReleased_workShrinks (announce : Bool) (b : Binding) (q : KeyPos) :
    WorkShrinks s (s.grantReleased announce b q) := by
  unfold State.grantReleased
  split
  next => exact .refl s
  next i a _ =>
    extract_lets s1 s2
    have written : WorkShrinks s (s2.removeAsk (some i)) :=
      .of_ports (by simp only [s2, s1]; cases announce <;> simp)
    exact (written.answer a.asker .granted [s2.table[q].gen]).next (by simp [State.answerGranted])

theorem State.releasePos_workShrinks (announce : Bool) (q : KeyPos) : WorkShrinks s (s.releasePos announce q) := by
  have unbound : WorkShrinks s (((s.withdraw announce q).leaveGroup announce q).unbind q) := .of_ports (by simp)
  exact (unbound.trans (State.grantReleased_workShrinks _ announce s.table[q] q)).next (by simp [State.releasePos])

theorem State.leavePos_workShrinks (p : Port) (q : KeyPos) : WorkShrinks s (State.leavePos p s q) := by
  unfold State.leavePos
  split
  · exact s.releasePos_workShrinks false q
  · exact .refl s

theorem State.clearPos_workShrinks (q : KeyPos) : WorkShrinks s (s.clearPos q) := by
  unfold State.clearPos
  split
  · exact .refl s
  · have unbound : WorkShrinks s ((s.withdraw true q).unbind q) := .of_ports (by simp)
    exact (unbound.trans (State.resetAskOn_workShrinks _ q s.table[q])).next (by simp)

theorem State.resetPos_workShrinks (q : KeyPos) : WorkShrinks s (s.resetPos q) := by
  unfold State.resetPos
  extract_lets b
  split
  next => exact .refl s
  next =>
    split
    · refine .of_ports ?_
      split <;> rfl
    · have unbound : WorkShrinks s (s.unbind q) := .of_ports (by simp)
      exact unbound.trans (State.resetAskOn_workShrinks _ q b)

theorem State.setPort_workShrinks {p : Port} {u : PortUnit} (h : u.state = s.ports[p].state) :
    WorkShrinks s (s.setPort p u) :=
  fun k r w => (workingOn_setPort h k r).mp w

theorem State.emptyQueue_workShrinks (p : Port) : WorkShrinks s (s.emptyQueue p) :=
  (s.setPort_workShrinks (p := p) (u := s.ports[p].emptied) rfl).next (by simp [State.emptyQueue])

theorem State.overTable_workShrinks {effect : State → KeyPos → State} (h : ∀ t q, WorkShrinks t (effect t q)) :
    WorkShrinks s (s.overTable effect) :=
  .foldl h _ s

theorem State.resetRecords_workShrinks : WorkShrinks s s.resetRecords := by
  intro p r w
  simpa [WorkingOn, State.resetRecords, PortUnit.deskReset] using w

theorem State.resetLamps_ports : s.resetLamps.ports = s.ports := by
  simp only [State.resetLamps]

theorem State.deskReset_workShrinks : WorkShrinks s s.deskReset := by
  unfold State.deskReset
  extract_lets s1 s2
  have records : WorkShrinks s s1 :=
    ((s.overTable_workShrinks State.resetPos_workShrinks).trans (State.resetRecords_workShrinks _)).next
      (State.resetLamps_ports _)
  have sessions : WorkShrinks s s2 := records.trans (.foldl (fun t n => .of_ports (by simp)) _ s1)
  exact sessions.trans (.foldl State.emptyQueue_workShrinks _ s2)

end

/-! ## Held records (R70) -/

section
variable {s : State}

/-- A withdrawal leaves the set as it is, or every record of the position withdrawn (R70). -/
theorem State.withdraw_cases (s : State) (announce : Bool) (q : KeyPos) :
    ((s.withdraw announce q).held = s.held ∧ ∀ r, s.heldAt q = some r → r.openedTo = none) ∨
    (s.withdraw announce q).held = s.held.map (fun r => if r.pos = q then r.withdrawn else r) := by
  unfold State.withdraw
  split
  next none => exact .inl ⟨rfl, fun r e => by rw [none] at e; cases e⟩
  next r found =>
    split
    next closed => exact .inl ⟨rfl, fun x e => by rw [found] at e; cases e; exact closed⟩
    next =>
      refine .inr ?_
      split
      · simp [State.modifyHeld]
      · rfl

theorem map_pos_of_kept {l : List HeldRecord} {f : HeldRecord → HeldRecord} (h : ∀ r, (f r).pos = r.pos) :
    (l.map f).map HeldRecord.pos = l.map HeldRecord.pos := by
  rw [List.map_map]
  exact List.map_congr_left fun r _ => h r

theorem HeldRecord.withdrawn_pos (r : HeldRecord) (q : KeyPos) : (if r.pos = q then r.withdrawn else r).pos = r.pos := by
  split <;> rfl

theorem State.withdraw_places (s : State) (announce : Bool) (q : KeyPos) :
    (s.withdraw announce q).held.map HeldRecord.pos = s.held.map HeldRecord.pos := by
  obtain ⟨same, -⟩ | all := s.withdraw_cases announce q
  · rw [same]
  · rw [all, map_pos_of_kept fun r => r.withdrawn_pos q]

/-- A record after a withdrawal is one that was there, or is one of the position, withdrawn. -/
theorem State.withdraw_mem {announce : Bool} {q : KeyPos} {r : HeldRecord} (h : r ∈ (s.withdraw announce q).held) :
    r ∈ s.held ∨ ∃ x ∈ s.held, x.pos = q ∧ r = x.withdrawn := by
  obtain ⟨same, -⟩ | all := s.withdraw_cases announce q
  · exact .inl (same ▸ h)
  · rw [all] at h
    obtain ⟨x, hx, rfl⟩ := List.mem_map.mp h
    split
    next e => exact .inr ⟨x, hx, e, rfl⟩
    next => exact .inl hx

/-- After a withdrawal no record of the position is opened. -/
theorem State.withdraw_loose (law : s.HeldLaw) {announce : Bool} {q : KeyPos} {r : HeldRecord}
    (h : r ∈ (s.withdraw announce q).held) (hq : r.pos = q) : r.openedTo = none := by
  obtain ⟨same, closed⟩ | all := s.withdraw_cases announce q
  · rw [same] at h
    exact closed r (hq ▸ State.heldAt_of_mem law h)
  · rw [all] at h
    obtain ⟨x, hx, rfl⟩ := List.mem_map.mp h
    rw [HeldRecord.withdrawn_pos] at hq
    rw [if_pos hq]
    rfl

theorem HeldForm.withdrawn {r : HeldRecord} (h : HeldForm r) : HeldForm r.withdrawn where
  closing e := by cases e
  due e := absurd rfl e
  period x e := by cases e
  count := h.count

/-- Whether a position has a record is read from the places of the records. -/
theorem State.heldAt_isSome (s : State) (q : KeyPos) : (s.heldAt q).isSome = true ↔ q ∈ s.held.map HeldRecord.pos := by
  rw [Option.isSome_iff_ne_none, Ne, State.heldAt_none]
  simp

end

end Sys2Proof.Machine
end

section
/-! PROOF. A command as a chain of acts: each act is one event of the manual with the conditions under which the model
brings it about, so that a law needs to be kept by each act alone. -/

namespace Sys2Proof.Machine

/-! ## What the acts stand on -/

section
variable {s : State} {p : Port}

theorem State.askOf_eq_none_iff : s.askOf p = none ↔ ∀ (i : AskId) a, s.asks[i] = some a → a.asker ≠ p := by
  refine ⟨fun none i a ha e => ?_, State.askOf_none⟩
  rw [State.askOf, List.findSome?_eq_none_iff] at none
  have := none i (List.mem_finRange i)
  rw [ha] at this
  simp [e] at this

theorem State.askOn_eq_none_iff {q : KeyPos} : s.askOn q = none ↔ ∀ (i : AskId) a, s.asks[i] = some a → a.pos ≠ q := by
  refine ⟨fun none i a ha e => ?_, State.askOn_none⟩
  rw [State.askOn, List.findSome?_eq_none_iff] at none
  have := none i (List.mem_finRange i)
  rw [ha] at this
  simp [e] at this

end

/-- The port works on no YIELD ASK whose entry is in the table. -/
def State.Unasked (s : State) (p : Port) : Prop :=
  ∀ w raw, WorkingOn s p (.yieldAsk w raw) → s.askOf p = none

theorem State.unasked_of_working {s : State} {p : Port} {r : Request} (hw : WorkingOn s p r)
    (hr : ∀ w raw, r ≠ .yieldAsk w raw) : s.Unasked p :=
  fun w raw h => absurd (PortState.working.inj (hw.symm.trans h)) (hr w raw)

/-- The SELECT set of a taker names an OPEN group of its own that has room, or, where `q` is a member of it, any. -/
def State.RoomFor (s : State) (p : Port) (a : AttrSet) (member : GroupId → Prop) : Prop :=
  ∀ g, a.cls.group? = some g → ∃ x, s.groups[g] = some x ∧ x.owner = p ∧ (x.count < 128 ∨ member g)

/-- A link engine replaced by another whose session stays off or on, or ends with no held record left on the panel. -/
structure LinkChange (s : State) (n : LinkId) (l : LinkEngine) : Prop where
  law : LinkLaw n s.links[n] → LinkLaw n l
  handed : l.handed = s.links[n].handed
  off : l.session = .off ↔ s.links[n].session = .off
  session : s.links[n].session.isSession = true → l.session.isSession = true ∨ ∀ r ∈ s.held, panelOf r.pos ≠ n

/-- One event of a command other than POWER_ON, DESK_TICK and HOST_LAPSE. -/
inductive Act (s : State) : State → Prop
  | port (p : Port) (u : PortUnit) (mode : u.lineMode = s.ports[p].lineMode)
      (state : u.state = s.ports[p].state ∨
        ∀ x, PortLaw p s.ports[p] s.queues[p] x → ∀ r, ¬ WorkingOn s p r)
      (law : ∀ x, PortLaw p s.ports[p] s.queues[p] x → PortLaw p u s.queues[p] x) : Act s (s.setPort p u)
  | fall (p : Port) : Act s
      ((s.setPort p { s.ports[p] with csLow := true, lapseStart := none, txn := some (s.newTransaction p) }).setPresence p
        .present)
  | removal (p : Port) (x : Transaction) (c : Bool) (k left : Nat) (n : Notice) (q : List Notice) (out : List Byte)
      (txn : s.ports[p].txn = some x) (reading : x.reading = .notices c k) (counted : x.left = left + 1)
      (queue : s.queues[p] = n :: q) : Act s
      (({ s with queues := upd s.queues p q }.setPort p
        { s.ports[p] with txn := some { x with left := left, reading := .notices true 0, out := out } }).driveNote p)
  | answer (p : Port) (st : StatusCode) (d : List Byte) (unasked : s.Unasked p)
      (taken : p = 0 → s.workingOnSetLinks = true → s.allTaken = true) : Act s (s.answer p st d)
  | endAsk (i : AskId) (a : Ask) (st : StatusCode) (ask : s.asks[i] = some a) : Act s (s.endAsk i a st)
  | offer (p : Port) (r : Report) (kind : r.kind ≠ .overrun) : Act s (s.offer p r)
  | unpin (q : KeyPos) (owned : s.table[q].owner ≠ none) : Act s (s.setHold .opened q)
  | hold (h : Hold) (q : KeyPos) (st : StatusCode) (owned : s.table[q].owner ≠ none)
      (fixed : h = .fixed → s.table[q].cls.group? = none) : Act s ((s.setHold h q).endAskOn q st)
  | lampValue (v : Lamp) (q : KeyPos) (owned : s.table[q].owner ≠ none) : Act s (s.setLampValue v q)
  | acquire (p : Port) (a : AttrSet) (q : KeyPos) (unasked : s.Unasked p) (free : s.table[q].owner = none)
      (room : s.RoomFor p a fun _ => False) : Act s (s.acquire p a q)
  | replace (p : Port) (a : AttrSet) (q : KeyPos) (unasked : s.Unasked p) (own : s.table[q].owner = some p)
      (loose : s.table[q].hold ≠ .fixed) (room : s.RoomFor p a fun g => s.table[q].cls = .select g) :
      Act s (s.replacePos a q)
  | release (announce : Bool) (q : KeyPos) (owned : s.table[q].owner ≠ none) : Act s (s.releasePos announce q)
  | grantEntry (i : AskId) (a : Ask) (ask : s.asks[i] = some a) :
      Act s (s.grant (some i) a.asker a.holder a.set a.pos)
  | grantNow (p h : Port) (a : AttrSet) (q : KeyPos) (w : Half) (raw : RawAttrs)
      (working : WorkingOn s p (.yieldAsk w raw)) (unasked : s.askOf p = none) (free : s.askOn q = none)
      (owned : s.table[q].owner = some h) (other : h ≠ p) (room : s.RoomFor p a fun _ => False) :
      Act s (s.grant none p h a q)
  | entry (i : AskId) (p h : Port) (a : AttrSet) (q : KeyPos) (raw : RawAttrs) (deadline : Time)
      (id : s.asks[i] = none) (working : WorkingOn s p (.yieldAsk (BitVec.ofNat 16 q.1) raw))
      (valid : raw.validate = some a) (unasked : s.askOf p = none) (free : s.askOn q = none)
      (owned : s.table[q].owner = some h) (other : h ≠ p) (hold : s.table[q].hold = .opened)
      (present : s.presence[h] = .present) (room : s.RoomFor p a fun _ => False) :
      Act s (s.setAsk i (some { asker := p, holder := h, pos := q, set := a, deadline := deadline }))
  | clearTable : Act s (s.overTable State.clearPos).freeGroups
  | leave (p : Port) (unasked : s.Unasked p) : Act s ((s.overTable (State.leavePos p)).freeGroupsOf p)
  | present (p : Port) : Act s (s.setPresence p .present)
  | emptyQueue (p : Port) : Act s (s.emptyQueue p)
  | openGroup (g : GroupId) (p : Port) (m : GroupMode) (free : s.groups[g] = none) :
      Act s (s.setGroup g (some { owner := p, mode := m, selected := none, count := 0 }))
  | groupMode (g : GroupId) (x : SelGroup) (m : GroupMode) (group : s.groups[g] = some x) :
      Act s (s.setGroup g (some { x with mode := m }))
  | closeGroup (g : GroupId) (x : SelGroup) (group : s.groups[g] = some x) (unasked : s.Unasked x.owner)
      (empty : x.count = 0) : Act s (s.setGroup g none)
  | deselect (g : GroupId) (x : SelGroup) (group : s.groups[g] = some x) : Act s (s.deselect g x)
  | profile (i : ProfileId) (f : Profile) (ok : ProfileLaw f) : Act s { s with profiles := upd s.profiles i f }
  | writePort (p : Port) (m : LineMode) (lapse : Byte) (ok : lapse.toNat ≤ 60) : Act s (s.writePort p m lapse)
  | writeLinks (m e w : Byte) (working : s.workingOnSetLinks = true) (taken : s.allTaken = true) :
      Act s (s.writeLinks m e w)
  | link (n : LinkId) (l : LinkEngine) (change : LinkChange s n l) : Act s (s.setLink n l)
  | enable (n : LinkId) (l : LinkEngine) (law : LinkLaw n s.links[n] → LinkLaw n l)
      (handed : s.links[n].handed = some true) (taken : l.handed = none) (on : l.session ≠ .off)
      (session : s.links[n].session.isSession = true → l.session.isSession = true) : Act s (s.setLink n l)
  | disable (n : LinkId) (l : LinkEngine) (law : LinkLaw n s.links[n] → LinkLaw n l)
      (handed : s.links[n].handed = some false) (taken : l.handed = none) (off : l.session = .off)
      (session : s.links[n].session.isSession = true → ∀ r ∈ s.held, panelOf r.pos ≠ n) : Act s (s.setLink n l)
  | forgetSent (n : LinkId) : Act s (s.forgetSent n)
  | writeSent (n : LinkId) (a : Acceptance) : Act s (s.writeSent n a)
  | due (q : KeyPos) (r : HeldRecord) (d : Time) (period : Profile → Nat) (found : s.heldAt q = some r)
      (phase : (r.phase = .delay d ∧ period = fun f => tenths f.period) ∨
        ∃ k, r.phase = .repeating d k ∧ period = fun _ => k) : Act s (s.dueAt q r d period)
  | press (resync : Bool) (q : KeyPos) (session : s.links[panelOf q].session.isSession = true) :
      Act s (s.pressKey resync q)
  | releaseKey (resync lost : Bool) (q : KeyPos) : Act s (s.releaseKey resync lost q)
  | deskReset : Act s s.deskReset

/-- A chain of acts. -/
abbrev Acts : State → State → Prop :=
  Relation.ReflTransGen Act

/-- What every act keeps, a chain of acts keeps. -/
theorem Acts.keeps {P : State → Prop} (h : ∀ s t, Act s t → P s → P t) {s t : State} (a : Acts s t) (hs : P s) : P t := by
  induction a with
  | refl => exact hs
  | tail _ act ih => exact h _ _ act ih

theorem Act.acts {s t : State} (h : Act s t) : Acts s t :=
  .single h

/-- The outcome of a command is reached by acts. -/
def ActsTo (s : State) (o : Out) : Prop :=
  ∀ t, o = .next t → Acts s t

theorem ActsTo.next {s t : State} (h : Acts s t) : ActsTo s (.next t) :=
  fun _ e => Host.Outcome.next.inj e ▸ h

/-! ## Answers -/

section
variable {s t : State} {p : Port} {r : Request}

theorem State.workingOnSetLinks_iff (s : State) :
    s.workingOnSetLinks = true ↔ ∃ m e w, WorkingOn s 0 (.setLinks m e w) := by
  refine ⟨fun h => ?_, fun ⟨m, e, w, h⟩ => State.workingOnSetLinks_of h⟩
  unfold State.workingOnSetLinks at h
  split at h
  next m e w req =>
    refine ⟨m, e, w, ?_⟩
    unfold State.requestOf at req
    split at req
    next x hx =>
      cases req
      exact hx
    all_goals cases req
  next => cases h

theorem State.requestOf_some (h : s.requestOf p = some r) : WorkingOn s p r := by
  unfold State.requestOf at h
  split at h
  next x hx =>
    cases h
    exact hx
  all_goals cases h

/-- A port that worked on a request other than a YIELD ASK and SET LINKS can be answered after any events that leave
it working on that request or answered. -/
theorem WorkShrinks.answers (h : WorkShrinks s t) (hw : WorkingOn s p r) (hr : ∀ w raw, r ≠ .yieldAsk w raw)
    (hl : ∀ m e w, r ≠ .setLinks m e w) (st : StatusCode) (d : List Byte) : Act t (t.answer p st d) := by
  refine .answer p st d (fun w raw k => ?_) fun p0 k => ?_
  · exact absurd (PortState.working.inj (hw.symm.trans (h p _ k))) (hr w raw)
  · subst p0
    obtain ⟨m, e, w, k⟩ := t.workingOnSetLinks_iff.mp k
    exact absurd (PortState.working.inj (hw.symm.trans (h 0 _ k))) (hl m e w)

/-- A port that works on a request other than a YIELD ASK and SET LINKS is answered. -/
theorem answers_act (hw : WorkingOn s p r) (hr : ∀ w raw, r ≠ .yieldAsk w raw) (hl : ∀ m e w, r ≠ .setLinks m e w)
    (st : StatusCode) (d : List Byte) : Act s (s.answer p st d) :=
  (WorkShrinks.refl s).answers hw hr hl st d

/-- A range request whose effects are acts that leave its port working on it or answered. -/
theorem rangeRequest_acts (hw : WorkingOn s p r) (hr : ∀ w raw, r ≠ .yieldAsk w raw) (hl : ∀ m e w, r ≠ .setLinks m e w)
    {f : Half} {n : Byte} {whole : Option StatusCode} {failure : List KeyPos → Option (StatusCode × Nat)}
    {effect : State → KeyPos → State}
    (walk : ∀ qs, qs.Nodup → whole = none → failure qs = none → Acts s (qs.foldl effect s))
    (shrinks : ∀ t q, WorkShrinks t (effect t q)) :
    Acts s (s.rangeRequest p f n whole failure effect) := by
  unfold State.rangeRequest
  split
  next => exact (answers_act hw hr hl _ _).acts
  next qs range =>
    split
    next => exact (answers_act hw hr hl _ _).acts
    next =>
      split
      next => exact (answers_act hw hr hl _ _).acts
      next passes =>
        exact (walk qs (rangeOf_nodup range) rfl passes).tail ((WorkShrinks.foldl shrinks qs s).answers hw hr hl _ _)

end

end Sys2Proof.Machine
end

section
/-! PROOF. The requests of the binding controller, the yield unit, the group unit and the other blocks as chains of
acts. -/

namespace Sys2Proof.Machine

/-! ## Walks over a range -/

/-- A walk over positions is a chain of acts where each effect is, at a position as the walk finds it. -/
theorem walk_acts {effect : State → KeyPos → State} {ok : State → KeyPos → Prop}
    (act : ∀ t q, ok t q → Acts t (effect t q)) (kept : ∀ t q k, k ≠ q → ok t k → ok (effect t q) k) (l : List KeyPos)
    (s : State) (nodup : l.Nodup) (h : ∀ q ∈ l, ok s q) : Acts s (l.foldl effect s) := by
  induction l generalizing s with
  | nil => exact .refl
  | cons q l ih =>
    obtain ⟨fresh, nodup⟩ := List.nodup_cons.mp nodup
    refine (act s q (h q (by simp))).trans (ih _ nodup fun k hk => ?_)
    exact kept s q k (fun e => fresh (e ▸ hk)) (h k (by simp [hk]))

theorem firstFailure_eq_none_iff {check : KeyPos → Option StatusCode} {l : List KeyPos} {k : Nat} :
    firstFailure check k l = none ↔ ∀ q ∈ l, check q = none := by
  induction l generalizing k with
  | nil => simp [firstFailure]
  | cons q l ih =>
    cases e : check q with
    | none => simp only [firstFailure, e, ih, List.mem_cons, forall_eq_or_imp, true_and]
    | some st => simp [firstFailure, e]

section
variable {s : State} {p : Port} {q : KeyPos}

theorem State.ownRefusal_eq_none_iff : s.ownRefusal p q = none ↔ s.table[q].owner = some p ∧ s.table[q].hold ≠ .fixed := by
  refine ⟨fun h => ?_, fun ⟨own, loose⟩ => State.ownRefusal_passes own loose⟩
  by_cases own : s.table[q].owner = some p
  · by_cases fixed : s.table[q].hold = .fixed
    · rw [State.ownRefusal_fixed own fixed] at h
      cases h
    · exact ⟨own, fixed⟩
  · rw [State.ownRefusal_notOwner own] at h
    cases h

theorem State.fixRefusal_eq_none (h : s.fixRefusal q = none) :
    s.table[q].owner ≠ none ∧ s.table[q].cls.group? = none := by
  by_cases free : s.table[q].owner = none
  · rw [State.fixRefusal_free free] at h
    cases h
  · refine ⟨free, ?_⟩
    rw [KeyClass.group?_eq_none_iff]
    intro g select
    rw [State.fixRefusal_select free select] at h
    cases h

theorem State.lampRefusal_eq_none (h : s.lampRefusal p q = none) :
    s.table[q].owner = some p ∧ s.table[q].lampMode = .host := by
  by_cases own : s.table[q].owner = some p
  · by_cases mode : s.table[q].lampMode = .host
    · exact ⟨own, mode⟩
    · rw [State.lampRefusal_mode own mode] at h
      cases h
  · rw [State.lampRefusal_notOwner own] at h
    cases h

end

/-! ## One position of a walk -/

section
variable (s : State)

/-- A change of hold leaves all but the hold of the position. -/
theorem State.setHold_other (h : Hold) (q k : KeyPos) : (s.setHold h q).table[k].owner = s.table[k].owner ∧
    (s.setHold h q).table[k].cls = s.table[k].cls := by
  by_cases e : k = q
  · subst e
    rw [State.setHold, State.setBinding_self_table]
    exact ⟨rfl, rfl⟩
  · rw [State.setHold, State.setBinding_other_table s e]
    exact ⟨rfl, rfl⟩

theorem State.setLampValue_owner (v : Lamp) (q k : KeyPos) :
    (State.setLampValue v s q).table[k].owner = s.table[k].owner := by
  rw [State.setLampValue, (State.rederive_frame _ _).1]
  by_cases e : k = q
  · subst e
    rw [State.setBinding_self_table]
  · rw [State.setBinding_other_table s e]

theorem State.freeGroupsOf_ports (p : Port) : (s.freeGroupsOf p).ports = s.ports := by
  simp only [State.freeGroupsOf]

/-- Without an ask nothing is granted. -/
theorem State.grantReleased_none {q : KeyPos} (h : s.askOn q = none) (announce : Bool) (b : Binding) :
    s.grantReleased announce b q = s := by
  simp only [State.grantReleased, h]

/-- The grant in a release writes the record of its position alone. -/
theorem State.grantReleased_table {q : KeyPos} {i : AskId} {a : Ask} (h : s.askOn q = some (i, a)) (announce : Bool)
    (b : Binding) : (s.grantReleased announce b q).table = upd s.table q (s.table[q].take a.asker a.set) := by
  simp only [State.grantReleased, h]
  cases announce <;> simp

theorem State.releasePos_other_table (announce : Bool) {q k : KeyPos} (h : k ≠ q) :
    (s.releasePos announce q).table[k] = s.table[k] := by
  have unbound : (((s.withdraw announce q).leaveGroup announce q).unbind q).table[k] = s.table[k] := by
    rw [State.unbind_table, upd_ne _ _ _ _ (Ne.symm h), (State.leaveGroup_frame _ _ _).1, (State.withdraw_frame _ _ _).1]
  rw [State.releasePos, (State.rederive_frame _ _).1]
  cases ask : (((s.withdraw announce q).leaveGroup announce q).unbind q).askOn q with
  | none => rw [State.grantReleased_none _ ask, unbound]
  | some e => rw [State.grantReleased_table _ ask, upd_ne _ _ _ _ (Ne.symm h), unbound]

end

/-! ## CLAIM (R19) -/

section
variable {s : State} {p : Port} {a : AttrSet}

/-- A CLAIM that passes: no position is refused, and the group has room for those that newly join it. -/
theorem State.claimFailure_eq_none {g : Option GroupId} {m k : Nat} {l : List KeyPos}
    (h : s.claimFailure p g m k l = none) : (∀ q ∈ l, s.claimRefusal p q = none) ∧
      ∀ g', g = some g' → m + s.joiners p g' l ≤ 128 ∨ s.joiners p g' l = 0 := by
  induction l generalizing m k with
  | nil => exact ⟨by simp, fun g' _ => .inr rfl⟩
  | cons q l ih =>
    cases refusal : s.claimRefusal p q with
    | some st =>
      rw [State.claimFailure_refused refusal] at h
      cases h
    | none =>
      cases g with
      | none =>
        rw [State.claimFailure_ungrouped refusal] at h
        exact ⟨by simpa [refusal] using (ih h).1, by simp⟩
      | some g =>
        cases member : s.isMember p g q with
        | true =>
          rw [State.claimFailure_member refusal member] at h
          refine ⟨by simpa [refusal] using (ih h).1, fun g' e => ?_⟩
          obtain rfl := Option.some.inj e
          rw [State.joiners_cons_member member]
          exact (ih h).2 g rfl
        | false =>
          by_cases room : m + 1 ≤ 128
          · rw [State.claimFailure_joins refusal member room] at h
            refine ⟨by simpa [refusal] using (ih h).1, fun g' e => ?_⟩
            obtain rfl := Option.some.inj e
            rw [State.joiners_cons_joiner member]
            have := (ih h).2 g rfl
            omega
          · rw [State.claimFailure_full refusal member (by omega)] at h
            cases h

theorem State.claimPos_other_table (s : State) (p : Port) (a : AttrSet) {q k : KeyPos} (h : k ≠ q) :
    (State.claimPos p a s q).table[k] = s.table[k] := by
  unfold State.claimPos
  split
  next => rw [State.acquire_table, upd_ne _ _ _ _ (Ne.symm h)]
  next => rw [State.replacePos_table, upd_ne _ _ _ _ (Ne.symm h)]

/-- The group a set names gains each position of the walk that was not a member of it, and no other. -/
theorem State.claimPos_group {q : KeyPos} (ok : s.claimRefusal p q = none) {g : GroupId} (named : a.cls.group? = some g) :
    (State.claimPos p a s q).groups[g] =
      if s.isMember p g q = true then s.groups[g] else s.groups[g].map SelGroup.joined := by
  unfold State.claimPos
  split
  next free =>
    have member : ¬ s.isMember p g q = true := by
      rw [State.isMember_iff]
      rintro ⟨own, -⟩
      rw [own] at free
      cases free
    rw [State.acquire_group, if_pos named, if_neg member]
  next k owned =>
    have own : s.table[q].owner = some p := by
      obtain free | own := State.claimRefusal_eq_none_iff.mp ok
      · rw [owned] at free
        cases free
      · exact own.1
    have member_iff : s.isMember p g q = true ↔ s.table[q].cls.group? = some g := by
      rw [State.isMember_iff, KeyClass.group?_eq_some_iff]
      exact ⟨And.right, fun h => ⟨own, h⟩⟩
    rw [State.replacePos_group, named]
    by_cases member : s.table[q].cls.group? = some g
    · rw [if_pos member, if_pos (member_iff.mpr member)]
    · rw [if_neg member, if_neg member, if_pos rfl, if_neg (mt member_iff.mp member)]

theorem State.joiners_congr {s t : State} {l : List KeyPos} (h : ∀ q ∈ l, t.table[q] = s.table[q]) (p : Port)
    (g : GroupId) : t.joiners p g l = s.joiners p g l := by
  rw [State.joiners, State.joiners]
  congr 1
  exact List.filter_congr fun q hq => by rw [h q hq]

/-- The walk of a CLAIM that passes its checks. -/
theorem claim_walk (unasked : ∀ t : State, t.ports = s.ports → t.Unasked p) (l : List KeyPos) (t : State)
    (ports : t.ports = s.ports) (nodup : l.Nodup) (ok : ∀ q ∈ l, t.claimRefusal p q = none)
    (room : ∀ g, a.cls.group? = some g → ∃ x, t.groups[g] = some x ∧ x.owner = p ∧
      (x.count + t.joiners p g l ≤ 128 ∨ t.joiners p g l = 0)) :
    Acts t (l.foldl (State.claimPos p a) t) := by
  induction l generalizing t with
  | nil => exact .refl
  | cons q l ih =>
    obtain ⟨fresh, nodup⟩ := List.nodup_cons.mp nodup
    have others : ∀ k ∈ l, (State.claimPos p a t q).table[k] = t.table[k] := fun k hk =>
      t.claimPos_other_table p a fun e => fresh (e ▸ hk)
    have act : Act t (State.claimPos p a t q) := by
      have roomy : ∀ g, a.cls.group? = some g → ∃ x, t.groups[g] = some x ∧ x.owner = p ∧
          (x.count < 128 ∨ t.isMember p g q = true) := fun g named => by
        obtain ⟨x, hx, owner, count⟩ := room g named
        refine ⟨x, hx, owner, ?_⟩
        cases member : t.isMember p g q with
        | true => exact .inr rfl
        | false =>
          rw [State.joiners_cons_joiner member] at count
          exact .inl (by omega)
      obtain free | ⟨own, loose⟩ := State.claimRefusal_eq_none_iff.mp (ok q (by simp))
      · have taken : State.claimPos p a t q = t.acquire p a q := by simp only [State.claimPos, free]
        rw [taken]
        refine .acquire p a q (unasked t ports) free fun g named => ?_
        obtain ⟨x, hx, owner, count | member⟩ := roomy g named
        · exact ⟨x, hx, owner, .inl count⟩
        · rw [State.isMember_iff, free] at member
          cases member.1
      · have taken : State.claimPos p a t q = t.replacePos a q := by simp only [State.claimPos, own]
        rw [taken]
        refine .replace p a q (unasked t ports) own loose fun g named => ?_
        obtain ⟨x, hx, owner, count | member⟩ := roomy g named
        · exact ⟨x, hx, owner, .inl count⟩
        · exact ⟨x, hx, owner, .inr (State.isMember_iff.mp member).2⟩
    refine (Act.acts act).trans (ih _ ?_ nodup (fun k hk => ?_) fun g named => ?_)
    · rw [← ports]
      unfold State.claimPos
      split <;> simp
    · rw [← ok k (by simp [hk]), State.claimRefusal, State.claimRefusal, others k hk]
    · obtain ⟨x, hx, owner, count⟩ := room g named
      rw [State.joiners_congr others, State.claimPos_group (ok q (by simp)) named]
      cases member : t.isMember p g q with
      | true =>
        rw [State.joiners_cons_member member] at count
        exact ⟨x, by rw [if_pos rfl, hx], owner, count⟩
      | false =>
        rw [State.joiners_cons_joiner member] at count
        refine ⟨x.joined, by rw [if_neg Bool.false_ne_true, hx]; rfl, owner, .inl ?_⟩
        show x.count + 1 + _ ≤ 128
        omega

end

/-! ## The commands of the binding controller -/

section
variable (p : Port) (s : State)

theorem execClaim_acts : ActsTo s (execClaim p s) := by
  refine .next ?_
  split
  next f n raw req =>
    have hw := State.requestOf_some req
    split
    next => exact rangeRequest_acts hw nofun nofun (fun _ _ e => by cases e) fun t _ => .refl t
    next a valid =>
      refine rangeRequest_acts hw nofun nofun (fun qs nodup group passes => ?_) fun t q => .of_ports ?_
      · obtain ⟨ok, room⟩ := State.claimFailure_eq_none passes
        refine claim_walk (fun t e => State.unasked_of_working (hw.congr e) nofun) qs s rfl nodup ok fun g named => ?_
        obtain ⟨x, hx, owner⟩ := State.groupRefusal_eq_none_iff.mp group g ((KeyClass.group?_eq_some_iff _ _).mp named)
        refine ⟨x, hx, owner, ?_⟩
        have := room g named
        rwa [named, State.membersOf_some hx] at this
      · unfold State.claimPos
        split <;> simp
  next => exact .refl

theorem execRelease_acts : ActsTo s (execRelease p s) := by
  refine .next ?_
  split
  next f n req =>
    refine rangeRequest_acts (State.requestOf_some req) nofun nofun (fun qs nodup _ passes => ?_)
      fun t q => t.releasePos_workShrinks true q
    refine walk_acts (ok := fun t q => t.table[q].owner ≠ none) (fun t q h => (Act.release true q h).acts)
      (fun t q k h ok => ?_) qs s nodup fun q hq => ?_
    · rwa [t.releasePos_other_table true h]
    · rw [(State.ownRefusal_eq_none_iff.mp (firstFailure_eq_none_iff.mp passes q hq)).1]
      exact Option.some_ne_none p
  next => exact .refl

/-- The walk of PIN and FIX. -/
theorem hold_walk (h : Hold) (st : StatusCode) (l : List KeyPos) (nodup : l.Nodup)
    (owned : ∀ q ∈ l, s.table[q].owner ≠ none) (fixed : h = .fixed → ∀ q ∈ l, s.table[q].cls.group? = none) :
    Acts s (l.foldl (fun t q => (t.setHold h q).endAskOn q st) s) := by
  refine walk_acts (ok := fun t q => t.table[q].owner ≠ none ∧ (h = .fixed → t.table[q].cls.group? = none))
    (fun t q ok => (Act.hold h q st ok.1 ok.2).acts) (fun t q k _ ok => ?_) l s nodup
    fun q hq => ⟨owned q hq, fun e => fixed e q hq⟩
  rw [(State.endAskOn_frame _ _ _).1, (t.setHold_other h q k).1, (t.setHold_other h q k).2]
  exact ok

theorem setHold_endAskOn_workShrinks (h : Hold) (st : StatusCode) (q : KeyPos) :
    WorkShrinks s ((s.setHold h q).endAskOn q st) :=
  (WorkShrinks.of_ports (by simp)).trans (State.endAskOn_workShrinks _ q st)

theorem execPin_acts : ActsTo s (execPin p s) := by
  refine .next ?_
  split
  next f n req =>
    refine rangeRequest_acts (State.requestOf_some req) nofun nofun (fun qs nodup _ passes => ?_)
      fun t q => setHold_endAskOn_workShrinks t .pinned .refused q
    refine hold_walk s .pinned .refused qs nodup (fun q hq => ?_) (fun e => by cases e)
    rw [(State.ownRefusal_eq_none_iff.mp (firstFailure_eq_none_iff.mp passes q hq)).1]
    exact Option.some_ne_none p
  next => exact .refl

theorem execUnpin_acts : ActsTo s (execUnpin p s) := by
  refine .next ?_
  split
  next f n req =>
    refine rangeRequest_acts (State.requestOf_some req) nofun nofun (fun qs nodup _ passes => ?_)
      fun t q => .of_ports (by simp)
    refine walk_acts (ok := fun t q => t.table[q].owner ≠ none) (fun t q h => (Act.unpin q h).acts)
      (fun t q k _ ok => by rwa [(t.setHold_other .opened q k).1]) qs s nodup fun q hq => ?_
    rw [(State.ownRefusal_eq_none_iff.mp (firstFailure_eq_none_iff.mp passes q hq)).1]
    exact Option.some_ne_none p
  next => exact .refl

theorem execFix_acts : ActsTo s (execFix s) := by
  refine .next ?_
  split
  next f n req =>
    refine rangeRequest_acts (State.requestOf_some req) nofun nofun (fun qs nodup _ passes => ?_)
      fun t q => setHold_endAskOn_workShrinks t .fixed .fixed q
    have passes := fun q hq => State.fixRefusal_eq_none (firstFailure_eq_none_iff.mp passes q hq)
    exact hold_walk s .fixed .fixed qs nodup (fun q hq => (passes q hq).1) fun _ q hq => (passes q hq).2
  next => exact .refl

theorem execLamp_acts : ActsTo s (execLamp p s) := by
  refine .next ?_
  split
  next f n value req =>
    have hw := State.requestOf_some req
    split
    next => exact rangeRequest_acts hw nofun nofun (fun _ _ e => by cases e) fun t _ => .refl t
    next v _ =>
      refine rangeRequest_acts hw nofun nofun (fun qs nodup _ passes => ?_)
        fun t q => .of_ports (by simp [State.setLampValue])
      refine walk_acts (ok := fun t q => t.table[q].owner ≠ none) (fun t q h => (Act.lampValue v q h).acts)
        (fun t q k _ ok => by rwa [t.setLampValue_owner v q k]) qs s nodup fun q hq => ?_
      rw [(State.lampRefusal_eq_none (firstFailure_eq_none_iff.mp passes q hq)).1]
      exact Option.some_ne_none p
  next => exact .refl

theorem execClearTable_acts : ActsTo s (execClearTable s) := by
  refine .next ?_
  split
  next req =>
    have shrinks : WorkShrinks s (s.overTable State.clearPos).freeGroups :=
      (s.overTable_workShrinks State.clearPos_workShrinks).next (by simp)
    exact (Act.clearTable.acts).tail (shrinks.answers (State.requestOf_some req) nofun nofun _ _)
  next => exact .refl

/-- What LEAVE does once the bindings and groups of the host are gone. -/
theorem left_acts {s t : State} (walk : Acts s t) (shrinks : WorkShrinks s t) {p : Port} (hw : WorkingOn s p .leave) :
    Acts s (((t.setPresence p .present).emptyQueue p).answer p .ok []) := by
  have emptied : WorkShrinks s ((t.setPresence p .present).emptyQueue p) :=
    (shrinks.next (u := t.setPresence p .present) rfl).trans (State.emptyQueue_workShrinks _ p)
  exact ((walk.tail (.present p)).tail (.emptyQueue p)).tail (emptied.answers hw nofun nofun _ _)

theorem execLeave_acts : ActsTo s (execLeave p s) := by
  refine .next ?_
  split
  next req =>
    have hw := State.requestOf_some req
    have walk : WorkShrinks s (s.overTable (State.leavePos p)) :=
      s.overTable_workShrinks (effect := State.leavePos p) fun t q => t.leavePos_workShrinks p q
    have act : Act s ((s.overTable (State.leavePos p)).freeGroupsOf p) := .leave p (State.unasked_of_working hw nofun)
    exact left_acts act.acts (walk.next (State.freeGroupsOf_ports _ p)) hw
  next => exact .refl

/-- A command that at most answers its port. -/
theorem execReadBinding_acts : ActsTo s (execReadBinding p s) := by
  refine .next ?_
  split
  next w req =>
    have hw := State.requestOf_some req
    split <;> exact (answers_act hw nofun nofun _ _).acts
  next => exact .refl

end

end Sys2Proof.Machine
end

section
/-! PROOF. The yield unit, the group unit, the repeat timer, the desk settings and the reads as chains of acts. -/

namespace Sys2Proof.Machine

/-! ## Asks -/

section
variable {s : State} {p : Port}

/-- An ask closed: ended, then reported. -/
theorem closeAsk_acts {i : AskId} {a : Ask} (ask : s.asks[i] = some a) (st : StatusCode) (why : CloseReason) (b : Binding) :
    Acts s (s.closeAsk i a st why b) :=
  (Act.endAsk i a st ask).acts.tail (.offer a.holder _ (by simp [yieldReport]))

theorem position_some {w : Half} {q : KeyPos} (h : position w = some q) : w = BitVec.ofNat 16 q.1 := by
  have value : w.toNat = q.1 := by
    by_cases small : w.toNat < 1024
    · have found : position w = some ⟨w.toNat, small⟩ := position_eq rfl
      rw [found] at h
      exact congrArg Fin.val (Option.some.inj h)
    · rw [position_none (by omega)] at h
      cases h
  rw [← value]
  exact (BitVec.ofNat_toNat 16 w).symm ▸ (by simp)

theorem State.askOf_mem {i : AskId} {a : Ask} (h : s.askOf p = some (i, a)) : s.asks[i] = some a ∧ a.asker = p := by
  unfold State.askOf at h
  obtain ⟨j, -, hj⟩ := List.exists_of_findSome?_eq_some h
  cases e : s.asks[j] with
  | none => simp [e] at hj
  | some b =>
    simp only [e, Option.bind_some] at hj
    split_ifs at hj with hb
    simp only [Option.some.injEq, Prod.mk.injEq] at hj
    obtain ⟨rfl, rfl⟩ := hj
    exact ⟨e, hb⟩

theorem State.heldAsk_mem {id : Byte} {i : AskId} {a : Ask} (h : s.heldAsk p id = some (i, a)) :
    s.asks[i] = some a ∧ a.holder = p := by
  unfold State.heldAsk at h
  split at h
  next => cases h
  next j _ =>
    cases e : s.asks[j] with
    | none => simp [e] at h
    | some b =>
      simp only [e, Option.bind_some] at h
      split_ifs at h with hb
      simp only [Option.some.injEq, Prod.mk.injEq] at h
      obtain ⟨rfl, rfl⟩ := h
      exact ⟨e, hb⟩

/-- A CANCEL ends the port's own pending ask or changes nothing (R181). -/
theorem cancelAsk_acts (s : State) (p : Port) : Acts s (s.cancelAsk p) := by
  unfold State.cancelAsk
  split
  next =>
    split
    next => exact .refl
    next i a ask => exact closeAsk_acts (State.askOf_mem ask).1 _ _ _
  next => exact .refl

/-- An ask that passes R42 up to order 9. -/
structure State.AskPasses (s : State) (p : Port) (q : KeyPos) (a : AttrSet) : Prop where
  room : s.RoomFor p a fun _ => False
  self : s.table[q].owner ≠ some p
  hold : s.table[q].hold = .opened
  free : s.askOn q = none

theorem State.askOutcome_cases (s : State) (p : Port) (q : KeyPos) (a : AttrSet) :
    (∃ st, s.askOutcome p q a = .refused st) ∨ (s.AskPasses p q a ∧
      ((s.table[q].owner = none ∧ s.askOutcome p q a = .claim q a) ∨ ∃ h, s.table[q].owner = some h ∧
        ((s.presence[h] = .lapsed ∧ s.askOutcome p q a = .lapsed q a h) ∨
          (s.presence[h] = .present ∧ s.askOutcome p q a = .entry q a h)))) := by
  unfold State.askOutcome
  split
  next st _ => exact .inl ⟨st, rfl⟩
  next own =>
    split
    next => exact .inl ⟨_, rfl⟩
    next self =>
      split
      next => exact .inl ⟨_, rfl⟩
      next fixed =>
        split
        next => exact .inl ⟨_, rfl⟩
        next pinned =>
          split
          next => exact .inl ⟨_, rfl⟩
          next free =>
            split
            next => exact .inl ⟨_, rfl⟩
            next room =>
              have passes : s.AskPasses p q a := by
                refine ⟨fun g named => ?_, self, ?_, by simpa using free⟩
                · obtain ⟨x, hx, owner⟩ :=
                    State.groupRefusal_eq_none_iff.mp own g ((KeyClass.group?_eq_some_iff _ _).mp named)
                  refine ⟨x, hx, owner, .inl ?_⟩
                  simp only [State.groupFull, named, State.membersOf_some hx, Config.maxMembers, decide_eq_true_eq] at room
                  omega
                · cases h : s.table[q].hold with
                  | opened => rfl
                  | fixed => exact absurd h fixed
                  | pinned => exact absurd h pinned
              refine .inr ⟨passes, ?_⟩
              split
              next free => exact .inl ⟨free, rfl⟩
              next h owned =>
                refine .inr ⟨h, owned, ?_⟩
                split
                next lapsed => exact .inl ⟨lapsed, rfl⟩
                next present =>
                  refine .inr ⟨?_, rfl⟩
                  cases x : s.presence[h] with
                  | present => rfl
                  | lapsed => exact absurd x present

end

section
variable (p : Port) (s : State)

/-- A port WORKING on a YIELD ASK without an entry can be answered. -/
theorem asker_answer_act {s t : State} {p : Port} {w : Half} {raw : RawAttrs} (hw : WorkingOn s p (.yieldAsk w raw))
    (unasked : s.askOf p = none) (ports : t.ports = s.ports) (asks : t.asks = s.asks) (st : StatusCode) (d : List Byte) :
    Act t (t.answer p st d) := by
  refine .answer p st d (fun _ _ _ => ?_) fun p0 k => ?_
  · rw [State.askOf_eq_none_iff, asks]
    exact State.askOf_eq_none_iff.mp unasked
  · subst p0
    obtain ⟨m, e, w', k⟩ := t.workingOnSetLinks_iff.mp k
    cases PortState.working.inj (hw.symm.trans (k.congr ports.symm))

theorem makeEntry_acts {q : KeyPos} {a : AttrSet} {h : Port} {raw : RawAttrs}
    (hw : WorkingOn s p (.yieldAsk (BitVec.ofNat 16 q.1) raw)) (valid : raw.validate = some a)
    (unasked : s.askOf p = none) (passes : s.AskPasses p q a) (owned : s.table[q].owner = some h)
    (present : s.presence[h] = .present) : Acts s (s.makeEntry p q a h) := by
  unfold State.makeEntry
  split
  next => exact .refl
  next i free =>
    have id : s.asks[i] = none := by
      have := List.find?_some free
      rwa [Option.isNone_iff_eq_none] at this
    have other : h ≠ p := fun e => passes.self (e ▸ owned)
    exact (Act.entry i p h a q raw _ id hw valid unasked passes.free owned other passes.hold present passes.room).acts.tail
      (.offer h _ (by simp [yieldReport]))

theorem execYieldAsk_acts : ActsTo s (execYieldAsk p s) := by
  refine .next ?_
  split
  next w raw req =>
    have hw := State.requestOf_some req
    split
    next => exact .refl
    next entry =>
      have unasked : s.askOf p = none := by simpa using entry
      have refused : ∀ st, Acts s (s.answer p st []) := fun st => (asker_answer_act hw unasked rfl rfl st []).acts
      unfold State.takeAsk State.checkAsk
      cases hq : position w with
      | none => exact refused .badPosition
      | some q =>
        obtain rfl := position_some hq
        cases valid : raw.validate with
        | none => exact refused .badAttr
        | some a =>
          obtain ⟨st, e⟩ | ⟨passes, ⟨free, e⟩ | ⟨h, owned, ⟨lapsed, e⟩ | ⟨present, e⟩⟩⟩ := s.askOutcome_cases p q a
          · simp only [e]
            exact refused st
          · simp only [e]
            exact (Act.acquire p a q (fun _ _ _ => unasked) free passes.room).acts.tail
              (asker_answer_act hw unasked (by simp) (by simp) .granted _)
          · simp only [e]
            exact (Act.grantNow p h a q _ raw hw unasked passes.free owned (fun e => passes.self (e ▸ owned))
              passes.room).acts
          · simp only [e]
            exact makeEntry_acts p s hw valid unasked passes owned present
  next => exact .refl

theorem execYieldReply_acts : ActsTo s (execYieldReply p s) := by
  refine .next ?_
  split
  next id decision req =>
    have hw := State.requestOf_some req
    unfold State.takeReply
    split
    next => exact (answers_act hw nofun nofun _ _).acts
    next =>
      split
      next => exact (answers_act hw nofun nofun _ _).acts
      next i a ask =>
        obtain ⟨ha, rfl⟩ := State.heldAsk_mem ask
        split
        next =>
          exact (Act.grantEntry i a ha).acts.tail
            ((s.grant_workShrinks (some i) a.asker a.holder a.set a.pos).answers hw nofun nofun _ _)
        next =>
          exact (Act.endAsk i a .refused ha).acts.tail ((s.endAsk_workShrinks i a .refused).answers hw nofun nofun _ _)
  next => exact .refl

theorem execAskDeadline_acts (id : AskId) : ActsTo s (execAskDeadline id s) := by
  refine .next ?_
  split
  next => exact .refl
  next a ask =>
    split
    · exact closeAsk_acts ask _ _ _
    · exact .refl

/-! ## Groups -/

/-- A change of a group, or another act that leaves the ports, then the answer. -/
theorem act_answers {s t : State} {p : Port} {r : Request} (act : Act s t) (ports : t.ports = s.ports) (hw : WorkingOn s p r)
    (hr : ∀ w raw, r ≠ .yieldAsk w raw) (hl : ∀ m e w, r ≠ .setLinks m e w) (st : StatusCode) (d : List Byte) :
    Acts s (t.answer p st d) :=
  act.acts.tail ((WorkShrinks.of_ports ports).answers hw hr hl st d)

theorem execOpenGroup_acts : ActsTo s (execOpenGroup p s) := by
  refine .next ?_
  split
  next g m req =>
    have hw := State.requestOf_some req
    unfold State.takeOpenGroup
    split
    next =>
      split
      next free => exact act_answers (.openGroup _ p _ free) rfl hw nofun nofun _ _
      next x hx =>
        split
        · exact act_answers (.groupMode _ x _ hx) rfl hw nofun nofun _ _
        · exact (answers_act hw nofun nofun _ _).acts
    next => exact (answers_act hw nofun nofun _ _).acts
  next => exact .refl

/-- Checks 1 to 3 of R99 answer; what follows them is of the requester's own group. -/
theorem withOwnGroup_acts {r : Request} (hw : WorkingOn s p r) (hr : ∀ w raw, r ≠ .yieldAsk w raw)
    (hl : ∀ m e w, r ≠ .setLinks m e w) (group : Byte) {act : GroupId → SelGroup → State}
    (h : ∀ g x, s.groups[g] = some x → x.owner = p → Acts s (act g x)) : Acts s (s.withOwnGroup p group act) := by
  unfold State.withOwnGroup
  split
  next => exact (answers_act hw hr hl _ _).acts
  next g _ =>
    split
    next => exact (answers_act hw hr hl _ _).acts
    next x hx =>
      split
      next own => exact h g x hx own
      next => exact (answers_act hw hr hl _ _).acts

theorem execCloseGroup_acts : ActsTo s (execCloseGroup p s) := by
  refine .next ?_
  split
  next g req =>
    have hw := State.requestOf_some req
    refine withOwnGroup_acts p s hw nofun nofun g fun g x hx own => ?_
    split
    next => exact (answers_act hw nofun nofun _ _).acts
    next busy =>
      subst own
      exact act_answers (.closeGroup g x hx (State.unasked_of_working hw nofun) (by omega)) rfl hw nofun nofun _ _
  next => exact .refl

theorem State.deselect_ports (g : GroupId) (x : SelGroup) : (s.deselect g x).ports = s.ports := by
  simp

theorem execClearSelection_acts : ActsTo s (execClearSelection p s) := by
  refine .next ?_
  split
  next g req =>
    have hw := State.requestOf_some req
    exact withOwnGroup_acts p s hw nofun nofun g fun g x hx _ =>
      act_answers (.deselect g x hx) (s.deselect_ports g x) hw nofun nofun _ _
  next => exact .refl

/-! ## Reads and settings -/

theorem execReadGroup_acts : ActsTo s (execReadGroup p s) := by
  refine .next ?_
  split
  next g req =>
    have hw := State.requestOf_some req
    split <;> exact (answers_act hw nofun nofun _ _).acts
  next => exact .refl

theorem execReadHeld_acts : ActsTo s (execReadHeld p s) := by
  refine .next ?_
  split
  next req => exact (answers_act (State.requestOf_some req) nofun nofun _ _).acts
  next => exact .refl

theorem execReadPanel_acts : ActsTo s (execReadPanel p s) := by
  refine .next ?_
  split
  next b req =>
    have hw := State.requestOf_some req
    split <;> exact (answers_act hw nofun nofun _ _).acts
  next => exact .refl

theorem execReadDesk_acts : ActsTo s (execReadDesk p s) := by
  refine .next ?_
  split
  next req => exact (answers_act (State.requestOf_some req) nofun nofun _ _).acts
  next => exact .refl

theorem execReadProfile_acts : ActsTo s (execReadProfile p s) := by
  refine .next ?_
  split
  next b req =>
    have hw := State.requestOf_some req
    split <;> exact (answers_act hw nofun nofun _ _).acts
  next => exact .refl

theorem profileLaw_of_ok {f : Profile} (h : f.ok = true) : ProfileLaw f := by
  simp only [Profile.ok, Bool.and_eq_true, decide_eq_true_eq] at h
  obtain ⟨⟨⟨⟨delay, -⟩, step⟩, floor⟩, order⟩ := h
  have positive : ∀ b : Byte, b ≠ 0 → 1 ≤ b.toNat := fun b hb =>
    Nat.one_le_iff_ne_zero.mpr fun e => hb (BitVec.eq_of_toNat_eq e)
  exact ⟨positive _ delay, step, positive _ floor, order⟩

theorem execSetProfile_acts : ActsTo s (execSetProfile s) := by
  refine .next ?_
  split
  next b delay period step floor req =>
    have hw := State.requestOf_some req
    split
    next => exact (answers_act hw nofun nofun _ _).acts
    next i _ =>
      split
      next ok => exact act_answers (.profile i _ (profileLaw_of_ok ok)) rfl hw nofun nofun _ _
      next => exact (answers_act hw nofun nofun _ _).acts
  next => exact .refl

theorem State.writePort_workShrinks (m : LineMode) (lapse : Byte) : WorkShrinks s (s.writePort p m lapse) :=
  (s.setPort_workShrinks (p := p) (u := { s.ports[p] with lineMode := m, lapseTime := lapse }) rfl).next
    (s.writePort_ports p m lapse).1

theorem execSetPort_acts : ActsTo s (execSetPort p s) := by
  refine .next ?_
  split
  next mode lapse req =>
    have hw := State.requestOf_some req
    split
    next => exact (answers_act hw nofun nofun _ _).acts
    next m _ =>
      split
      next => exact (answers_act hw nofun nofun _ _).acts
      next ok =>
        exact (Act.writePort p m lapse (by omega)).acts.tail
          ((State.writePort_workShrinks p s m lapse).answers hw nofun nofun _ _)
  next => exact .refl

/-- SET LINKS is answered only once every change has been taken. -/
theorem settleLinks_acts : Acts s s.settleLinks := by
  unfold State.settleLinks
  split
  next settled =>
    obtain ⟨taken, working⟩ := Bool.and_eq_true_iff.mp settled
    obtain ⟨m, e, w, hw⟩ := s.workingOnSetLinks_iff.mp working
    exact (Act.answer 0 .ok [] (State.unasked_of_working hw nofun) fun _ _ => taken).acts
  next => exact .refl

theorem execSetLinks_acts : ActsTo s (execSetLinks s) := by
  refine .next ?_
  split
  next m e w req =>
    have hw := State.requestOf_some req
    split
    next taken =>
      split
      next => exact (Act.writeLinks m e w (State.workingOnSetLinks_of hw) taken).acts.trans (settleLinks_acts _)
      next => exact (Act.answer 0 .badAttr [] (State.unasked_of_working hw nofun) fun _ _ => taken).acts
    next => exact .refl
  next => exact .refl

theorem execDeskReset_acts : ActsTo s (execDeskReset s) := by
  refine .next ?_
  split
  next req =>
    exact Act.deskReset.acts.tail (s.deskReset_workShrinks.answers (State.requestOf_some req) nofun nofun _ _)
  next => exact .refl

/-! ## The repeat timer -/

theorem execRepeatDue_acts (q : KeyPos) : ActsTo s (execRepeatDue q s) := by
  refine .next ?_
  split
  next => exact .refl
  next r found =>
    split
    next => exact .refl
    next d phase =>
      split
      · exact (Act.due q r d _ found (.inl ⟨phase, rfl⟩)).acts
      · exact .refl
    next d k phase =>
      split
      · exact (Act.due q r d _ found (.inr ⟨k, phase, rfl⟩)).acts
      · exact .refl

end

end Sys2Proof.Machine
end

section
/-! PROOF. The host ports as chains of acts: what a transaction does to its port keeps the law of the port. -/

namespace Sys2Proof.Machine

/-! ## The law of a port that keeps its settings -/

section
variable {p : Port} {u v : PortUnit} {q : List Notice} {x : Presence} {t : Transaction}

theorem Answer.bytes_ne_nil (a : Answer) : a.bytes ≠ [] := by
  simp [Answer.bytes]

/-- A port that keeps its settings, its lapse timer, its chip select and its request. -/
theorem PortLaw.same_settings (h : PortLaw p u q x) (select : v.csLow = u.csLow) (time : v.lapseTime = u.lapseTime)
    (start : v.lapseStart = u.lapseStart) (work : ∀ r, v.state = .working r → u.state = .working r)
    (txn : ∀ t ∈ v.txn, TransactionLaw v q t) : PortLaw p v q x where
  txn := txn
  lapseTime := time ▸ h.lapseTime
  timer e := select ▸ h.timer (start ▸ e)
  lapsed e := by rw [select, time]; exact h.lapsed e
  supervisor r e k := h.supervisor r (work r e) k

/-- A transaction that reads on: counts kept, and what it clocks out accounted for. -/
theorem TransactionLaw.reads (h : TransactionLaw u q t) (select : v.csLow = u.csLow) {r : Reading} {out : List Byte}
    (fresh : r = .unread → out = [])
    (fetching : ∀ rest, r = .fetch rest true → ∃ a, v.state = .answered a ∧ out ++ rest = a.bytes ∧ rest ≠ [])
    (noticing : ∀ c k, r = .notices c k → k ≤ 9) :
    TransactionLaw v q { t with reading := r, out := out } where
  low := select.trans h.low
  fresh := fresh
  count := h.count
  left := h.left
  fetching := fetching
  noticing := noticing

/-- A kind byte completes in a transaction that has read nothing (R172). -/
theorem PortLaw.takeKind (h : PortLaw p u q x) (txn : u.txn = some t) (unread : t.reading = .unread) {r : Reading}
    (fetching : ∀ rest, r = .fetch rest true → ∃ a, u.state = .answered a ∧ rest = a.bytes)
    (noticing : ∀ c k, r = .notices c k → k ≤ 9) : PortLaw p (u.takeKind t r) q x := by
  have law := h.txn t txn
  refine h.same_settings rfl rfl rfl (fun _ e => e) fun y hy => ?_
  obtain rfl := Option.some.inj hy
  have out := law.fresh unread
  refine law.reads (v := u.takeKind t r) (out := t.out) rfl (fun _ => out) (fun rest e => ?_) noticing
  obtain ⟨a, state, rfl⟩ := fetching rest e
  exact ⟨a, state, by rw [out]; rfl, a.bytes_ne_nil⟩

/-- One more byte is clocked out of a transaction (R172). -/
theorem PortLaw.clock (h : PortLaw p u q x) (txn : u.txn = some t) {r : Reading} {b : Byte} (read : r ≠ .unread)
    (fetching : ∀ rest, r = .fetch rest true → t.reading = .fetch (b :: rest) true ∧ rest ≠ [])
    (noticing : ∀ c k, r = .notices c k → k ≤ 9) : PortLaw p { u with txn := some (t.clock r b) } q x := by
  have law := h.txn t txn
  refine h.same_settings rfl rfl rfl (fun _ e => e) fun y hy => ?_
  obtain rfl := Option.some.inj hy
  refine law.reads (v := { u with txn := some (t.clock r b) }) (out := t.out ++ [b]) rfl (fun e => absurd e read) (fun rest e => ?_) noticing
  obtain ⟨reading, more⟩ := fetching rest e
  obtain ⟨a, state, bytes, -⟩ := law.fetching _ reading
  exact ⟨a, state, by rw [List.append_assoc]; exact bytes, more⟩

/-- A port whose transaction has ended as chip select rose (R57). -/
theorem PortLaw.risen (h : PortLaw p u q x) (now : Time) : PortLaw p (u.risen now) q x where
  txn y hy := by cases hy
  lapseTime := h.lapseTime
  timer _ := rfl
  lapsed e := ⟨rfl, (h.lapsed e).2⟩
  supervisor := h.supervisor

end

/-! ## The commands -/

section
variable (p : Port) (s : State)

/-- A port that keeps its request or answer. -/
theorem port_act {u : PortUnit} (mode : u.lineMode = s.ports[p].lineMode) (state : u.state = s.ports[p].state)
    (law : ∀ x, PortLaw p s.ports[p] s.queues[p] x → PortLaw p u s.queues[p] x) : Act s (s.setPort p u) :=
  .port p u mode (.inl state) law

theorem kind_act {t : Transaction} (txn : s.ports[p].txn = some t) (unread : t.reading = .unread) {r : Reading}
    (fetching : ∀ rest, r = .fetch rest true → ∃ a, s.ports[p].state = .answered a ∧ rest = a.bytes)
    (noticing : ∀ c k, r = .notices c k → k ≤ 9) : Act s (s.setPort p (s.ports[p].takeKind t r)) :=
  port_act p s rfl rfl fun _ h => h.takeKind txn unread fetching noticing

theorem clock_act {t : Transaction} (txn : s.ports[p].txn = some t) {r : Reading} {b : Byte} (read : r ≠ .unread)
    (fetching : ∀ rest, r = .fetch rest true → t.reading = .fetch (b :: rest) true ∧ rest ≠ [])
    (noticing : ∀ c k, r = .notices c k → k ≤ 9) : Act s (s.clockByte p t r b) :=
  port_act p s rfl rfl fun _ h => h.clock txn read fetching noticing

/-- In the hold of power-on reset a fall is a change of the pin alone; outside it a transaction begins. -/
theorem execChipSelectFall_acts (out : s.resetLow = false) : ActsTo s (execChipSelectFall p s) := by
  refine .next ?_
  split
  next => exact .refl
  next =>
    rw [out, if_neg Bool.false_ne_true]
    exact (Act.fall p).acts

theorem execChipSelectRise_acts : ActsTo s (execChipSelectRise p s) :=
  .next (port_act p s (u := s.ports[p].risen s.deskTime) rfl rfl fun _ h => h.risen s.deskTime).acts

theorem execStatus_acts (b : Byte) : ActsTo s (execStatus p b s) := by
  refine .next ?_
  split
  next => exact .refl
  next t txn =>
    split
    next unread =>
      split
      · exact .refl
      · exact (kind_act p s txn unread (r := .status) nofun nofun).acts
    next => exact (clock_act p s txn (r := .status) nofun nofun nofun).acts
    all_goals exact .refl

/-- What a FETCH fixes: the bytes of an answer to be consumed, or none (R179). -/
theorem PortState.fetched_live {x : PortState} (h : x.fetched.2 = true) :
    ∃ a, x = .answered a ∧ x.fetched.1 = a.bytes := by
  cases x with
  | answered a => exact ⟨a, rfl, rfl⟩
  | idle | working r => cases h

theorem execFetch_acts : ActsTo s (execFetch p s) := by
  refine .next ?_
  split
  next => exact .refl
  next t txn =>
    split
    next unread =>
      refine (kind_act p s txn unread (r := .fetch _ _) (fun rest e => ?_) nofun).acts
      obtain ⟨rfl, live⟩ := Reading.fetch.inj e
      exact PortState.fetched_live live
    next live reading =>
      refine Act.acts (port_act p s (u := { s.ports[p] with txn := some (t.clock (.fetch [] live) 0) }) rfl rfl fun _ h => ?_)
      have none : live = false := by
        cases live with
        | false => rfl
        | true =>
          obtain ⟨-, -, -, more⟩ := (h.txn t txn).fetching _ reading
          exact absurd rfl more
      subst none
      exact h.clock txn (r := .fetch [] false) nofun nofun nofun
    next b live reading =>
      split
      next => exact .refl
      next dead =>
        have none : live = false := Bool.not_eq_true _ ▸ dead
        subst none
        exact (clock_act p s txn (r := .fetch [] false) nofun nofun nofun).acts
    next b c rest live reading =>
      refine (clock_act p s txn (r := .fetch (c :: rest) live) nofun (fun more e => ?_) nofun).acts
      obtain ⟨rfl, rfl⟩ := Reading.fetch.inj e
      exact ⟨reading, List.cons_ne_nil c rest⟩
    all_goals exact .refl

/-- A port whose answer has been consumed (R180). -/
theorem PortLaw.consumed {u : PortUnit} {q : List Notice} {x : Presence} {t : Transaction} {p : Port}
    (h : PortLaw p u q x) (txn : u.txn = some t) (out : List Byte) :
    PortLaw p { u with state := .idle, txn := some { t with reading := .fetch [] false, out := out } } q x := by
  refine h.same_settings rfl rfl rfl nofun fun y hy => ?_
  obtain rfl := Option.some.inj hy
  exact (h.txn t txn).reads (v := { u with state := .idle, txn := some { t with reading := .fetch [] false, out := out } })
    (r := .fetch [] false) rfl nofun nofun nofun

theorem execAnswerConsumed_acts : ActsTo s (execAnswerConsumed p s) := by
  refine .next ?_
  split
  next => exact .refl
  next t txn =>
    split
    next rest reading =>
      refine Act.acts (.port p _ rfl (.inr fun x law r working => ?_) fun _ law => law.consumed txn _)
      obtain ⟨a, answered, -⟩ := (law.txn t txn).fetching rest reading
      cases working.symm.trans answered
    all_goals exact .refl

theorem execNotices_acts : ActsTo s (execNotices p s) := by
  refine .next ?_
  split
  next => exact .refl
  next t txn =>
    split
    next unread => exact (kind_act p s txn unread (r := .notices false 0) nofun (fun c k e => by cases e; omega)).acts
    next c k reading =>
      split
      next r b byte =>
        refine Act.acts (port_act p s (u := { s.ports[p] with txn := some (t.clock r b) }) rfl rfl fun _ law => ?_)
        have low := (law.txn t txn).noticing c k reading
        unfold nextNoticeByte at byte
        have notices : ∃ m, r = .notices true m ∧ m ≤ 9 := by
          split at byte
          · cases byte
            exact ⟨k, rfl, low⟩
          · split at byte
            · cases byte
              exact ⟨k, rfl, low⟩
            · cases byte
              exact ⟨k, rfl, low⟩
            · split at byte
              · cases byte
                exact ⟨k + 1, rfl, by omega⟩
              · cases byte
        obtain ⟨m, rfl, hm⟩ := notices
        exact law.clock txn nofun nofun fun _ _ e => by cases e; exact hm
      next => exact .refl
    all_goals exact .refl

theorem execNoticeRemoval_acts : ActsTo s (execNoticeRemoval p s) := by
  refine .next ?_
  split
  next => exact .refl
  next t txn =>
    split
    next c k reading =>
      split
      next => exact .refl
      next => exact .refl
      next left n q counted queue => exact (Act.removal p t c k left n q _ txn reading counted queue).acts
    all_goals exact .refl

theorem execCancel_acts : ActsTo s (execCancel p s) := by
  refine .next ?_
  split
  next => exact .refl
  next t txn =>
    split
    next unread =>
      exact (kind_act p s txn unread (r := .cancel) nofun nofun).acts.trans (cancelAsk_acts _ p)
    next => exact (clock_act p s txn (r := .cancel) nofun nofun nofun).acts
    all_goals exact .refl

/-- A request read from its code and operands is answered by the port of none but the supervisor (R176). -/
theorem takeSubmit_working_only {bytes : List Byte} {r : Request} (h : takeSubmit p bytes = .working r)
    (only : r.supervisorOnly = true) : p = 0 := by
  unfold takeSubmit at h
  split at h
  next => cases h
  next =>
    split at h
    next => cases h
    next =>
      split at h
      next => cases h
      next =>
        split at h
        next => cases h
        next =>
          split at h
          next => cases h
          next passes =>
            cases h
            by_contra other
            exact passes (by rw [only, decide_eq_true other]; rfl)

theorem PortLaw.submitted {u : PortUnit} {q : List Notice} {x : Presence} {p : Port} (h : PortLaw p u q x)
    (txn : u.txn = none) (bytes : List Byte) (out : List Byte) :
    PortLaw p { u.submitted p bytes with lastOut := out } q x := by
  have none : ∀ t ∈ u.txn, ∀ y : PortUnit, TransactionLaw y q t := fun t ht => by
    rw [txn] at ht
    cases ht
  by_cases idle : u.state = .idle
  · rw [PortUnit.submitted_idle idle]
    exact {
      txn := fun t ht => none t ht _
      lapseTime := h.lapseTime
      timer := h.timer
      lapsed := h.lapsed
      supervisor := fun r working only => takeSubmit_working_only p working only }
  · rw [PortUnit.submitted_busy idle]
    exact { txn := fun t ht => none t ht _, lapseTime := h.lapseTime, timer := h.timer, lapsed := h.lapsed,
            supervisor := h.supervisor }

theorem execSubmit_acts (bytes : List Byte) : ActsTo s (execSubmit p bytes s) := by
  refine .next ?_
  split
  next => exact .refl
  next t txn =>
    split
    next unread =>
      refine Act.acts (.port p _ ?mode ?state fun x law =>
        ((law.takeKind txn unread (r := .unread) nofun nofun).risen s.deskTime).submitted rfl bytes _)
      case mode => unfold PortUnit.submitted; split <;> rfl
      case state =>
        by_cases idle : s.ports[p].state = .idle
        · exact .inr fun _ _ r working => by cases working.symm.trans idle
        · refine .inl ?_
          have busy : ((s.ports[p].takeKind t .unread).risen s.deskTime).state ≠ .idle := idle
          rw [PortUnit.submitted_busy busy]
          rfl
    all_goals exact .refl

end

end Sys2Proof.Machine
end

section
/-! PROOF. The link engines as chains of acts: each outcome of an exchange, each timer, the enabling and the disabling is
one change of the engine, with the events of the other blocks before it. -/

namespace Sys2Proof.Machine

/-! ## What reads no link engine -/

section
variable (s : State) (n : LinkId) (l : LinkEngine)

theorem State.setLink_heldAt (q : KeyPos) : (s.setLink n l).heldAt q = s.heldAt q :=
  rfl

theorem State.setLink_panelNotice (k : NoticeKind) (m : LinkId) (e : Half) :
    (s.setLink n l).panelNotice k m e = (s.panelNotice k m e).setLink n l :=
  rfl

theorem State.setLink_forgetSent (m : LinkId) : (s.setLink n l).forgetSent m = (s.forgetSent m).setLink n l :=
  rfl

theorem State.setLink_releaseKey (resync lost : Bool) (q : KeyPos) :
    (s.setLink n l).releaseKey resync lost q = (s.releaseKey resync lost q).setLink n l := by
  simp only [State.releaseKey, State.setLink_heldAt]
  cases s.heldAt q with
  | none => rfl
  | some r =>
    dsimp only
    cases r.openedTo with
    | none => rfl
    | some o => cases r.closingDue <;> rfl

theorem State.setLink_pressSelect (q : KeyPos) (h : Port) (g : GroupId) (resync : Bool) :
    (s.setLink n l).pressSelect q h g resync = (s.pressSelect q h g resync).setLink n l := by
  have groups : (s.setLink n l).groups = s.groups := rfl
  simp only [State.pressSelect, groups]
  cases s.groups[g] with
  | none => rfl
  | some x =>
    dsimp only
    cases x.selected with
    | none => rfl
    | some old =>
      dsimp only
      split
      · cases x.mode <;> rfl
      · rfl

theorem State.setLink_pressClass (q : KeyPos) (h : Port) (resync : Bool) :
    (s.setLink n l).pressClass q h resync = (s.pressClass q h resync).setLink n l := by
  have table : (s.setLink n l).table = s.table := rfl
  simp only [State.pressClass, table]
  cases s.table[q].cls with
  | select g => exact s.setLink_pressSelect n l q h g resync
  | momentary | pressOnly | repeating i | toggle x => rfl

theorem State.setLink_pressKey (resync : Bool) (q : KeyPos) :
    (s.setLink n l).pressKey resync q = (s.pressKey resync q).setLink n l := by
  by_cases held : ∃ r ∈ s.held, r.pos = q
  · rw [State.pressKey_held held, State.pressKey_held (s := s.setLink n l) held]
  have none : ∀ r ∈ s.held, r.pos ≠ q := fun r hr e => held ⟨r, hr, e⟩
  by_cases room : s.held.length < 16
  · cases ho : s.table[q].owner with
    | none =>
      rw [State.pressKey_unowned none room ho, State.pressKey_unowned (s := s.setLink n l) none room ho]
      rfl
    | some h =>
      rw [State.pressKey_owned none room ho, State.pressKey_owned (s := s.setLink n l) none room ho]
      exact congrArg (State.rederive · q) ((s.withNew q resync).setLink_pressClass n l q h resync)
  · have full : 16 ≤ s.held.length := by omega
    cases ho : s.table[q].owner with
    | none => rw [State.pressKey_full_unowned none full ho, State.pressKey_full_unowned (s := s.setLink n l) none full ho]
    | some h =>
      rw [State.pressKey_full_owned none full ho, State.pressKey_full_owned (s := s.setLink n l) none full ho]
      rfl

/-- A walk that reads no link engine. -/
theorem foldl_setLink {α : Type} {g : State → α → State} (h : ∀ t x, g (t.setLink n l) x = (g t x).setLink n l)
    (xs : List α) : xs.foldl g (s.setLink n l) = (xs.foldl g s).setLink n l := by
  induction xs generalizing s with
  | nil => rfl
  | cons x xs ih => rw [List.foldl_cons, h, ih, List.foldl_cons]

theorem State.setLink_releasePanel (m : LinkId) :
    (s.setLink n l).releasePanel m = (s.releasePanel m).setLink n l :=
  foldl_setLink s n l (fun t q => t.setLink_releaseKey n l false true q) _

theorem State.setLink_reconcile (m : LinkId) (c : Nat) (keys : BitVec 128) :
    (s.setLink n l).reconcile m c keys = (s.reconcile m c keys).setLink n l := by
  have releases : (s.setLink n l).reconcileReleases m keys = (s.reconcileReleases m keys).setLink n l :=
    foldl_setLink s n l (fun t q => t.setLink_releaseKey n l true false q) _
  rw [State.reconcile, releases]
  exact foldl_setLink _ n l (fun t q => t.setLink_pressKey n l true q) _

theorem State.setLink_syncNotice (m : LinkId) (c : SyncCause) (i : Identity) :
    (s.setLink n l).syncNotice m c i = (s.syncNotice m c i).setLink n l := by
  cases c <;> rfl

/-- The end of a session: the events of the other blocks, then the one change of the engine (R163). -/
theorem State.setLink_endSession (x : Session) : (s.setLink n l).endSession n x =
    ((((s.releasePanel n).panelNotice .panelDown n 0).forgetSent n).setLink n (l.lostSession x)) := by
  rw [State.endSession, State.setLink_releasePanel, State.setLink_panelNotice]
  show ((State.setLink _ n ((State.setLink _ n l).links[n].lostSession x)).forgetSent n) = _
  rw [State.setLink_link, State.setLink_setLink, State.setLink_forgetSent]

end

/-! ## Held records of a panel -/

/-- A walk of releases removes the records of the positions walked (R71). -/
theorem foldl_releaseKey_held (resync lost : Bool) (l : List KeyPos) (s : State) :
    (l.foldl (fun t q => t.releaseKey resync lost q) s).held = s.held.filter (fun r => decide (r.pos ∉ l)) := by
  induction l generalizing s with
  | nil => simp
  | cons q l ih =>
    rw [List.foldl_cons, ih, State.releaseKey_held, List.filter_filter]
    refine List.filter_congr fun r _ => ?_
    simp only [List.mem_cons, not_or, Bool.decide_and, Bool.and_comm]

theorem State.mem_heldOn {s : State} {n : LinkId} {q : KeyPos} :
    q ∈ s.heldOn n ↔ panelOf q = n ∧ ∃ r ∈ s.held, r.pos = q := by
  simp only [State.heldOn, List.mem_filter, List.mem_map, decide_eq_true_eq]
  exact and_comm

theorem State.releasePanel_held (s : State) (n : LinkId) :
    (s.releasePanel n).held = s.held.filter (fun r => decide (panelOf r.pos ≠ n)) := by
  rw [State.releasePanel, foldl_releaseKey_held]
  refine List.filter_congr fun r hr => decide_eq_decide.mpr (not_congr ?_)
  rw [State.mem_heldOn]
  exact ⟨And.left, fun h => ⟨h, r, hr, rfl⟩⟩

/-! ## The record of an engine (R154) -/

/-- The part of an engine's law that does not speak of the exchange and LCKn. -/
structure Steady (n : LinkId) (l : LinkEngine) : Prop where
  failures : l.failures ≤ 2
  noSession : l.session.isSession = false → l.failures = 0
  keyCount : ∀ i ∈ l.session.identity, 1 ≤ i.keyCount ∧ i.keyCount ≤ 128
  failedCount : l.failedCount ≤ 65535
  lostCount : l.lostCount ≤ 255
  edges : ∀ e ∈ l.edges, panelOf e.pos = n
  live : ∀ e ∈ l.edges, e.live = true → l.session.isUp = true

section
variable {n : LinkId} {l : LinkEngine}

theorem LinkLaw.steady (h : LinkLaw n l) : Steady n l :=
  ⟨h.failures, h.noSession, h.keyCount, h.failedCount, h.lostCount, h.edges, h.live⟩

/-- An exchange begun by a steady engine (R143, R146). -/
theorem Steady.begins (h : Steady n l) (on : l.session ≠ .off) {o : LinkOrder}
    (allowed : orderAllowed l.session (some ⟨o, l.failures + 1⟩) = true) :
    LinkLaw n { l with inFlight := some ⟨o, l.failures + 1⟩, lck := .clocking } where
  clock := by simp
  off := by simpa using on
  order := allowed
  attempt x hx := by
    obtain rfl := Option.some.inj hx
    rfl
  failures := h.failures
  noSession := h.noSession
  keyCount := h.keyCount
  failedCount := h.failedCount
  lostCount := h.lostCount
  edges := h.edges
  live := h.live

/-- A steady engine with no exchange in flight (R143). -/
theorem Steady.rests (h : Steady n l) (on : l.session ≠ .off) (idle : l.inFlight = none) (high : l.lck = .high)
    (allowed : orderAllowed l.session none = true) : LinkLaw n l where
  clock := by simp [idle, high]
  off := by simpa [high] using on
  order := idle ▸ allowed
  attempt x hx := by rw [idle] at hx; cases hx
  failures := h.failures
  noSession := h.noSession
  keyCount := h.keyCount
  failedCount := h.failedCount
  lostCount := h.lostCount
  edges := h.edges
  live := h.live

/-- A steady engine that is disabled (R165). -/
theorem Steady.off (h : Steady n l) (off : l.session = .off) (idle : l.inFlight = none) (low : l.lck = .low) :
    LinkLaw n l where
  clock := by simp [idle, low]
  off := by simp [low, off]
  order := by rw [off, idle]; rfl
  attempt x hx := by rw [idle] at hx; cases hx
  failures := h.failures
  noSession := h.noSession
  keyCount := h.keyCount
  failedCount := h.failedCount
  lostCount := h.lostCount
  edges := h.edges
  live := h.live

theorem Session.isUp_isSession {x : Session} (h : x.isUp = true) : x.isSession = true := by
  cases x with
  | up i last poll => rfl
  | off | probing d | holdoff d | syncing c i last => cases h

/-- No edge is live where there is no session. -/
theorem Steady.dead (h : Steady n l) (none : l.session.isSession = false) : ∀ e ∈ l.edges, e.live = false := by
  intro e he
  by_contra live
  have := Session.isUp_isSession (h.live e he (Bool.not_eq_false _ ▸ live))
  rw [none] at this
  cases this

/-- A session without identity entered from one without a session. -/
theorem Steady.searches (h : Steady n l) (none : l.session.isSession = false) {x : Session} (identity : x.identity = Option.none) :
    Steady n { l with session := x } where
  failures := h.failures
  noSession _ := h.noSession none
  keyCount i hi := by rw [show ({ l with session := x } : LinkEngine).session = x from rfl, identity] at hi; cases hi
  failedCount := h.failedCount
  lostCount := h.lostCount
  edges := h.edges
  live e he live := by rw [h.dead none e he] at live; cases live

/-- A session that ends without an identity (R163). -/
theorem Steady.lostSession (h : Steady n l) {x : Session} (identity : x.identity = none) : Steady n (l.lostSession x) where
  failures := Nat.zero_le 2
  noSession _ := rfl
  keyCount i hi := by rw [show (l.lostSession x).session = x from rfl, identity] at hi; cases hi
  failedCount := h.failedCount
  lostCount := by
    show (if l.lostCount < Config.maxLost then l.lostCount + 1 else l.lostCount) ≤ 255
    have low := h.lostCount
    have most : Config.maxLost = 255 := rfl
    split <;> omega
  edges e he := by
    obtain ⟨x, hx, rfl⟩ := List.mem_map.mp he
    exact h.edges x hx
  live e he live := by
    obtain ⟨x, -, rfl⟩ := List.mem_map.mp he
    cases live

/-- The exchange has failed once more (R148). -/
theorem Steady.failed (h : Steady n l) : Steady n { l.ended with failedCount := raiseFailed l.failedCount } where
  failures := h.failures
  noSession := h.noSession
  keyCount := h.keyCount
  failedCount := by
    show (if l.failedCount < Config.maxCount then l.failedCount + 1 else l.failedCount) ≤ 65535
    have low := h.failedCount
    have most : Config.maxCount = 65535 := rfl
    split <;> omega
  lostCount := h.lostCount
  edges := h.edges
  live := h.live

end

end Sys2Proof.Machine
end

section
/-! PROOF. The commands of the link engines as chains of acts, and with them every command but POWER_ON. -/

namespace Sys2Proof.Machine

/-! ## Walks of the other blocks -/

theorem foldl_acts {α : Type} {g : State → α → State} (h : ∀ t x, Acts t (g t x)) (l : List α) (s : State) :
    Acts s (l.foldl g s) := by
  induction l generalizing s with
  | nil => exact .refl
  | cons x xs ih => exact (h s x).trans (ih _)

section
variable (s : State) (n : LinkId)

theorem releasePanel_acts : Acts s (s.releasePanel n) :=
  foldl_acts (fun _ q => (Act.releaseKey false true q).acts) _ s

theorem panelNotice_acts {k : NoticeKind} (hk : k ≠ .overrun) (e : Half) : Acts s (s.panelNotice k n e) :=
  foldl_acts (fun _ p => (Act.offer p _ hk).acts) _ s

/-- What the other blocks do as a session ends (R78, R163). -/
def State.sessionGone : State :=
  ((s.releasePanel n).panelNotice .panelDown n 0).forgetSent n

theorem sessionGone_acts : Acts s (s.sessionGone n) :=
  ((releasePanel_acts s n).trans (panelNotice_acts _ n (by decide) 0)).tail (.forgetSent n)

theorem State.sessionGone_links : (s.sessionGone n).links = s.links := by
  simp [State.sessionGone]

/-- The session that ends leaves no held record on its panel (R78). -/
theorem State.sessionGone_held : ∀ r ∈ (s.sessionGone n).held, panelOf r.pos ≠ n := by
  intro r hr
  have held : (s.sessionGone n).held = s.held.filter (fun r => decide (panelOf r.pos ≠ n)) := by
    simp [State.sessionGone, State.releasePanel_held]
  rw [held] at hr
  simpa using (List.mem_filter.mp hr).2

theorem State.endSession_eq (l : LinkEngine) (x : Session) :
    (s.setLink n l).endSession n x = (s.sessionGone n).setLink n (l.lostSession x) :=
  s.setLink_endSession n l x

/-- The presses of a reconciliation, each while the session stands (R76). -/
theorem reconcilePresses_acts (session : s.links[n].session.isSession = true) (c : Nat) (keys : BitVec 128) :
    Acts s (s.reconcilePresses n c keys) := by
  have walk : ∀ (l : List KeyPos) (t : State), (∀ q ∈ l, panelOf q = n) → t.links = s.links →
      Acts t (l.foldl (fun t q => t.pressKey true q) t) := by
    intro l
    induction l with
    | nil => exact fun t _ _ => .refl
    | cons q l ih =>
      intro t panel links
      have here : t.links[panelOf q].session.isSession = true := by
        have here := panel q (by simp)
        subst here
        rw [links]
        exact session
      exact (Act.press true q here).acts.trans (ih _ (fun k hk => panel k (by simp [hk])) (by simp [links]))
  refine walk _ s (fun q hq => ?_) rfl
  obtain ⟨k, -, rfl⟩ := List.mem_map.mp hq
  apply Fin.ext
  simp only [panelOf, posOf]
  omega

theorem reconcile_acts (session : s.links[n].session.isSession = true) (c : Nat) (keys : BitVec 128) :
    Acts s (s.reconcile n c keys) := by
  have releases : Acts s (s.reconcileReleases n keys) := foldl_acts (fun _ q => (Act.releaseKey true false q).acts) _ s
  exact releases.trans (reconcilePresses_acts _ n (by simpa using session) c keys)

theorem syncNotice_acts (c : SyncCause) (i : Identity) : Acts s (s.syncNotice n c i) := by
  cases c <;> exact panelNotice_acts s n (by decide) _

end

/-! ## Changes of one engine -/

section
variable {s : State} {n : LinkId} {l : LinkEngine}

theorem link_acts (change : LinkChange s n l) : Acts s (s.setLink n l) :=
  (Act.link n l change).acts

/-- The engine changed after events of the other blocks. -/
theorem link_acts_after {t : State} (before : Acts s t) (links : t.links = s.links)
    (held : (∀ r ∈ t.held, panelOf r.pos ≠ n) ∨ l.session.isSession = true)
    (law : LinkLaw n s.links[n] → LinkLaw n l) (handed : l.handed = s.links[n].handed)
    (off : l.session = .off ↔ s.links[n].session = .off) : Acts s (t.setLink n l) := by
  refine before.tail (.link n l ⟨by rwa [links], by rwa [links], by rwa [links], fun _ => ?_⟩)
  obtain none | session := held
  · exact .inr none
  · exact .inl session

/-- PROBING is entered from a state without a session, by a link that is on. -/
theorem probe_acts (none : s.links[n].session.isSession = false) (on : s.links[n].session ≠ .off) :
    Acts s (s.probe n) := by
  rw [State.probe_eq]
  refine link_acts ⟨fun law => ?_, rfl, ⟨fun e => (by cases e), fun e => absurd e on⟩, fun session => ?_⟩
  · exact (law.steady.searches none (x := .probing (later s.deskTime Config.probeTime)) rfl).begins (by simp) rfl
  · rw [none] at session
    cases session

/-- The order that follows in a session is begun by the engine alone. -/
theorem State.nextOrder_setLink (s : State) (n : LinkId) (l : LinkEngine) : ∃ m, (s.setLink n l).nextOrder n = s.setLink n m ∧
    m.handed = l.handed ∧ m.session = l.session ∧
    (Steady n l → l.inFlight = none → l.lck = .high → l.session.isSession = true → LinkLaw n m) := by
  have rests : (s.setLink n l).links[n].session = l.session := by rw [State.setLink_link]
  cases hs : l.session with
  | off | probing d | holdoff d =>
    refine ⟨l, ?_, rfl, hs, fun _ _ _ session => by cases session⟩
    simp only [State.nextOrder, rests, hs]
  | syncing c i last =>
    refine ⟨_, State.nextOrder_syncing hs, rfl, hs, fun steady _ _ _ => ?_⟩
    exact steady.begins (by rw [hs]; simp) (by rw [hs]; rfl)
  | up i last start =>
    rw [State.nextOrder_up hs]
    have stays : ∃ m, s.setLink n l = s.setLink n m ∧ m.handed = l.handed ∧ m.session = .up i last start ∧
        (Steady n l → l.inFlight = none → l.lck = .high → (Session.up i last start).isSession = true → LinkLaw n m) :=
      ⟨l, rfl, rfl, hs, fun steady idle high _ => steady.rests (by rw [hs]; simp) idle high (by rw [hs]; rfl)⟩
    unfold State.chooseUp
    split
    next => exact stays
    next =>
      split
      next => exact stays
      next b _ =>
        refine ⟨_, State.setLink_beginOrder s n l _, rfl, hs, fun steady _ _ _ => ?_⟩
        exact steady.begins (by rw [hs]; simp) (by rw [hs]; rfl)

/-- The engine left by a good reply, then the order that follows. -/
theorem nextOrder_acts (handed : l.handed = s.links[n].handed) (off : l.session = .off ↔ s.links[n].session = .off)
    (session : s.links[n].session.isSession = true → l.session.isSession = true)
    (law : LinkLaw n s.links[n] → Steady n l ∧ l.inFlight = none ∧ l.lck = .high ∧ l.session.isSession = true) :
    Acts s ((s.setLink n l).nextOrder n) := by
  obtain ⟨m, e, handed', session', law'⟩ := s.nextOrder_setLink n l
  rw [e]
  refine link_acts ⟨fun h => ?_, handed'.trans handed, session' ▸ off, fun h => .inl (session' ▸ session h)⟩
  obtain ⟨steady, idle, high, on⟩ := law h
  exact law' steady idle high on

end

/-! ## Outcomes of exchanges -/

section
variable {s : State} {n : LinkId} {x : Exchange}

/-- An order in flight for a session tells that there is one (R140, R149). -/
theorem LinkLaw.session_of {l : LinkEngine} (h : LinkLaw n l) (flight : l.inFlight = some x)
    (order : x.order.kind = .poll ∨ x.order.kind = .lamp ∨ x.order.kind = .image) : l.session.isSession = true := by
  have allowed := h.order
  rw [flight] at allowed
  cases hs : l.session with
  | syncing c i last | up i last start => rfl
  | off | holdoff d =>
    rw [hs] at allowed
    cases allowed
  | probing d =>
    rw [hs] at allowed
    have identify : x.order.kind = .identify := by simpa [orderAllowed] using allowed
    rw [identify] at order
    simp at order

/-- The engine as its exchange ends with a good reply (R143, R146). -/
def LinkEngine.answered (l : LinkEngine) : LinkEngine :=
  { l with inFlight := none, lck := .high, failures := 0 }

theorem LinkLaw.answered_steady {l : LinkEngine} (h : LinkLaw n l) : Steady n l.answered :=
  { h.steady with failures := Nat.zero_le 2, noSession := fun _ => rfl }

theorem Session.withLast_isSession (y : Session) (k : OrderKind) : (y.withLast k).isSession = y.isSession := by
  cases y <;> rfl

theorem Session.withLast_isUp (y : Session) (k : OrderKind) : (y.withLast k).isUp = y.isUp := by
  cases y <;> rfl

theorem Session.withLast_identity (y : Session) (k : OrderKind) : (y.withLast k).identity = y.identity := by
  cases y <;> rfl

theorem Session.withLast_off (y : Session) (k : OrderKind) : y.withLast k = .off ↔ y = .off := by
  cases y <;> simp [Session.withLast]

theorem Steady.withLast {l : LinkEngine} (h : Steady n l) (k : OrderKind) :
    Steady n { l with session := l.session.withLast k } where
  failures := h.failures
  noSession e := h.noSession ((l.session.withLast_isSession k).symm.trans e)
  keyCount i hi := h.keyCount i (by rwa [← l.session.withLast_identity k])
  failedCount := h.failedCount
  lostCount := h.lostCount
  edges := h.edges
  live e he live := by
    show (l.session.withLast k).isUp = true
    rw [Session.withLast_isUp]
    exact h.live e he live

/-- An edge handed on is one of the panel, live only in UP (R63, R151). -/
theorem Steady.takeEdge {l : LinkEngine} (h : Steady n l) (bitS press : Bool) (key : BitVec 7) :
    Steady n (l.takeEdge n bitS press key) := by
  unfold LinkEngine.takeEdge
  split
  next => exact h
  next =>
    refine { h with edges := fun e he => ?_, live := fun e he live => ?_ }
    · dsimp only at he
      split at he
      · obtain he | he := List.mem_append.mp he
        · exact h.edges e he
        · rw [List.mem_singleton.mp he]
          apply Fin.ext
          have := key.isLt
          simp only [panelOf, posOf]
          omega
      · exact h.edges e he
    · dsimp only at he
      split at he
      · obtain he | he := List.mem_append.mp he
        · exact h.live e he live
        · rw [List.mem_singleton.mp he] at live
          exact live
      · exact h.live e he live

theorem LinkEngine.takeEdge_kept (l : LinkEngine) (n : LinkId) (bitS press : Bool) (key : BitVec 7) :
    (l.takeEdge n bitS press key).session = l.session ∧ (l.takeEdge n bitS press key).handed = l.handed ∧
    (l.takeEdge n bitS press key).inFlight = l.inFlight ∧ (l.takeEdge n bitS press key).lck = l.lck := by
  unfold LinkEngine.takeEdge
  split <;> exact ⟨rfl, rfl, rfl, rfl⟩

/-- A session whose state is that of LOST passes to SYNCING (R162). -/
theorem Steady.resynchronises {l : LinkEngine} (h : Steady n l) {i : Identity} {last : OrderKind} {start : Option Time}
    (up : l.session = .up i last start) (c : SyncCause) (k : OrderKind) : Steady n (l.leaveUp (.syncing c i k)) where
  failures := h.failures
  noSession e := by cases e
  keyCount j hj := h.keyCount j (by rw [up]; exact hj)
  failedCount := h.failedCount
  lostCount := h.lostCount
  edges e he := by
    obtain ⟨y, hy, rfl⟩ := List.mem_map.mp he
    exact h.edges y hy
  live e he live := by
    rw [l.leaveUp_edges _ e he] at live
    cases live

/-- The engine keeps its session as its exchange ends, where the order in flight tells that there is one. -/
theorem answered_acts (flight : s.links[n].inFlight = some x) (order : x.order.kind = .poll ∨ x.order.kind = .lamp)
    {l : LinkEngine} (handed : l.handed = s.links[n].handed) (k : OrderKind)
    (session : l.session = s.links[n].session.withLast k) (steady : Steady n s.links[n].answered → Steady n l)
    (idle : l.inFlight = none) (high : l.lck = .high) : Acts s ((s.setLink n l).nextOrder n) := by
  refine nextOrder_acts handed (by rw [session, Session.withLast_off]) (fun h => ?_) fun law => ?_
  · rw [session, Session.withLast_isSession]
    exact h
  · refine ⟨steady law.answered_steady, idle, high, ?_⟩
    rw [session, Session.withLast_isSession]
    exact law.session_of flight (by tauto)

theorem fits_ident {o : LinkOrder} {t c : Byte} (h : fits o (.ident t c) = true) :
    o = .identify ∧ 1 ≤ c.toNat ∧ c.toNat ≤ 128 := by
  cases o with
  | identify =>
    obtain ⟨low, high⟩ := Bool.and_eq_true_iff.mp h
    exact ⟨rfl, of_decide_eq_true low, of_decide_eq_true high⟩
  | image | poll b | lamp b v => cases h

theorem fits_image {o : LinkOrder} {keys : BitVec 128} (h : fits o (.image keys) = true) : o = .image := by
  cases o with
  | image => rfl
  | identify | poll b | lamp b v => cases h

theorem fits_accept {o : LinkOrder} (h : fits o .accept = true) : ∃ b v, o = .lamp b v := by
  cases o with
  | lamp b v => exact ⟨b, v, rfl⟩
  | identify | image | poll b => cases h

/-- NOTHING, EDGE and LOST are replies to a POLL alone. -/
theorem fits_poll {o : LinkOrder} {r : Reply} (h : fits o r = true)
    (hr : r = .nothing ∨ (∃ b p k, r = .edge b p k) ∨ r = .lost) : o.kind = .poll := by
  cases o with
  | poll b => rfl
  | identify | image | lamp b v => obtain rfl | ⟨b, p, k, rfl⟩ | rfl := hr <;> cases h

theorem takeIdent_acts (flight : s.links[n].inFlight = some x) {t c : Byte} (order : x.order = .identify)
    (count : 1 ≤ c.toNat ∧ c.toNat ≤ 128) : Acts s ((s.setLink n s.links[n].answered).takeIdent n t c) := by
  have here : (s.setLink n s.links[n].answered).links[n].session = s.links[n].session := by rw [State.setLink_link]; rfl
  -- an IDENTIFY is in flight in PROBING alone
  have unmet : (∀ d, s.links[n].session ≠ .probing d) → LinkLaw n s.links[n] → False := fun other law => by
    have allowed := law.order
    rw [flight] at allowed
    cases hs : s.links[n].session with
    | probing d => exact other d hs
    | off | holdoff d | syncing c i last | up i last start =>
      rw [hs] at allowed
      simp [orderAllowed, order, LinkOrder.kind] at allowed
  cases hs : s.links[n].session with
  | probing d =>
    have taken : (s.setLink n s.links[n].answered).takeIdent n t c = s.setLink n
        { s.links[n].answered with
          session := .syncing .new ⟨t, c.toNat⟩ .identify, inFlight := some ⟨.image, 1⟩, lck := .clocking } := by
      simp only [State.takeIdent, here, hs]
      rw [State.setSession, State.setLink_link, State.setLink_setLink, State.setLink_beginOrder]
      rfl
    rw [taken]
    refine link_acts ⟨fun law => ?_, rfl, ⟨fun e => (by cases e), fun e => (by rw [hs] at e; cases e)⟩, fun _ => .inl rfl⟩
    have steady : Steady n { s.links[n].answered with session := .syncing .new ⟨t, c.toNat⟩ .identify } :=
      { law.answered_steady with
        noSession := fun e => by cases e
        keyCount := fun i hi => by
          obtain rfl := Option.some.inj hi
          exact count
        live := fun e he live => by
          rw [law.steady.dead (by rw [hs]; rfl) e he] at live
          cases live }
    exact steady.begins (by simp) rfl
  | off | holdoff d | syncing k i last | up i last start =>
    have taken : (s.setLink n s.links[n].answered).takeIdent n t c = s.setLink n s.links[n].answered := by
      simp only [State.takeIdent, here, hs]
    rw [taken]
    exact link_acts ⟨fun law => (unmet (by rw [hs]; simp) law).elim, rfl, Iff.rfl, fun h => .inl h⟩

theorem takeImage_acts (flight : s.links[n].inFlight = some x) (order : x.order = .image) (keys : BitVec 128) :
    Acts s ((s.setLink n s.links[n].answered).takeImage n keys) := by
  have here : (s.setLink n s.links[n].answered).links[n].session = s.links[n].session := by rw [State.setLink_link]; rfl
  -- an IMAGE order is in flight in SYNCING alone
  have unmet : (∀ c i k, s.links[n].session ≠ .syncing c i k) → LinkLaw n s.links[n] → False := fun other law => by
    have allowed := law.order
    rw [flight] at allowed
    cases hs : s.links[n].session with
    | syncing c i k => exact other c i k hs
    | off | holdoff d | probing d | up i last start =>
      rw [hs] at allowed
      simp [orderAllowed, order, LinkOrder.kind] at allowed
  cases hs : s.links[n].session with
  | syncing c i k =>
    have up : Session := .up i .image none
    have taken : (s.setLink n s.links[n].answered).takeImage n keys =
        ((((s.reconcile n i.keyCount keys).syncNotice n c i).forgetSent n).setLink n
          { s.links[n].answered with bitL := false, session := .up i .image none }).nextOrder n := by
      simp only [State.takeImage, here, hs]
      rw [State.setLink_link, State.setLink_setLink, State.setLink_reconcile, State.setLink_syncNotice, State.setSession,
        State.setLink_link, State.setLink_setLink, State.setLink_forgetSent]
    rw [taken]
    have before : Acts s (((s.reconcile n i.keyCount keys).syncNotice n c i).forgetSent n) :=
      ((reconcile_acts s n (by rw [hs]; rfl) _ _).trans (syncNotice_acts _ n c i)).tail (.forgetSent n)
    have links : (((s.reconcile n i.keyCount keys).syncNotice n c i).forgetSent n).links = s.links := by simp
    obtain ⟨m, e, handed, session, law'⟩ := State.nextOrder_setLink
      (((s.reconcile n i.keyCount keys).syncNotice n c i).forgetSent n) n
      { s.links[n].answered with bitL := false, session := .up i .image none }
    rw [e]
    refine link_acts_after before links (.inr (by rw [session]; rfl)) (fun law => law' ?_ rfl rfl rfl) handed ?_
    · exact { law.answered_steady with
        noSession := fun e => by cases e
        keyCount := fun j hj => law.keyCount j (by rw [hs]; exact hj)
        live := fun _ _ _ => rfl }
    · rw [session, hs]
      simp
  | off | holdoff d | probing d | up i last start =>
    have taken : (s.setLink n s.links[n].answered).takeImage n keys = s.setLink n s.links[n].answered := by
      simp only [State.takeImage, here, hs]
    rw [taken]
    exact link_acts ⟨fun law => (unmet (by rw [hs]; simp) law).elim, rfl, Iff.rfl, fun h => .inl h⟩

theorem takeLost_acts (flight : s.links[n].inFlight = some x) (order : x.order.kind = .poll) :
    Acts s ((s.setLink n s.links[n].answered).takeLost n) := by
  have here : (s.setLink n s.links[n].answered).links[n].session = s.links[n].session := by rw [State.setLink_link]; rfl
  cases hs : s.links[n].session with
  | up i last start =>
    have taken : (s.setLink n s.links[n].answered).takeLost n = ((s.forgetSent n).setLink n
        (s.links[n].answered.leaveUp (.syncing .lost i .poll))).nextOrder n := by
      simp only [State.takeLost, here, hs]
      rw [State.leaveUp, State.setLink_link, State.setLink_setLink, State.setLink_forgetSent]
    rw [taken]
    have links : (s.forgetSent n).links = s.links := by simp
    refine Relation.ReflTransGen.head (.forgetSent n) (nextOrder_acts ?_ ?_ (fun _ => rfl) fun law => ?_)
    · rw [links]
      rfl
    · rw [links, hs]
      simp [LinkEngine.leaveUp]
    · rw [links] at law
      exact ⟨law.answered_steady.resynchronises hs .lost .poll, rfl, rfl, rfl⟩
  | syncing c i last =>
    have taken : (s.setLink n s.links[n].answered).takeLost n = (s.setLink n s.links[n].answered).nextOrder n := by
      simp only [State.takeLost, here, hs]
    rw [taken]
    exact nextOrder_acts rfl Iff.rfl id fun law => ⟨law.answered_steady, rfl, rfl, law.session_of flight (.inl order)⟩
  | off | holdoff d | probing d =>
    have taken : (s.setLink n s.links[n].answered).takeLost n = s.setLink n s.links[n].answered := by
      simp only [State.takeLost, here, hs]
    rw [taken]
    refine link_acts ⟨fun law => ?_, rfl, Iff.rfl, fun h => .inl h⟩
    have session := law.session_of flight (.inl order)
    rw [hs] at session
    cases session

/-- A good reply (R146, R151). -/
theorem goodReply_acts (flight : s.links[n].inFlight = some x) {r : Reply} (good : fits x.order r = true) :
    Acts s ((s.setLink n s.links[n].answered).goodReply n x r) := by
  cases r with
  | ident t c =>
    obtain ⟨order, count⟩ := fits_ident good
    exact takeIdent_acts flight order count
  | image keys => exact takeImage_acts flight (fits_image good) keys
  | nothing =>
    rw [State.goodReply_nothing]
    exact answered_acts flight (.inl (fits_poll good (.inl rfl))) rfl .poll rfl (fun h => h.withLast .poll) rfl rfl
  | edge bitS press key =>
    rw [State.goodReply_edge]
    obtain ⟨session, handed, idle, high⟩ := LinkEngine.takeEdge_kept
      { s.links[n].answered with session := s.links[n].answered.session.withLast .poll } n bitS press key
    exact answered_acts flight (.inl (fits_poll good (.inr (.inl ⟨_, _, _, rfl⟩)))) handed .poll session
      (fun h => (h.withLast .poll).takeEdge bitS press key) idle high
  | lost => exact takeLost_acts flight (fits_poll good (.inr (.inr rfl)))
  | accept =>
    obtain ⟨b, v, order⟩ := fits_accept good
    rw [State.goodReply_accept order]
    exact answered_acts flight (.inr (by rw [order]; rfl)) rfl .lamp rfl (fun h => { h.withLast .lamp with }) rfl rfl
  | again => cases hx : x.order <;> rw [hx] at good <;> cases good

/-- A failed exchange (R146 to R148). -/
theorem failExchange_acts (s : State) (n : LinkId) : Acts s (s.failExchange n) := by
  unfold State.failExchange
  split
  next => exact .refl
  next x flight =>
    extract_lets l ended s1
    have failed : s1.links[n] = { l.ended with failedCount := raiseFailed l.failedCount } := State.setLink_link s n _
    have retries : ∀ o : LinkOrder, l.session.isSession = true →
        (LinkLaw n l → ∀ k, orderAllowed l.session (some ⟨o, k⟩) = true) → Acts s (s1.failInSession n o) := by
      intro o session allowed
      have on : l.session ≠ .off := fun e => by rw [e] at session; cases session
      unfold State.failInSession
      split
      next third =>
        have ended := s.endSession_eq n { l.ended with failedCount := raiseFailed l.failedCount }
          (.holdoff (later s1.deskTime Config.holdoffTime))
        rw [show s1.endSession n _ = _ from ended]
        refine link_acts_after (sessionGone_acts s n) (s.sessionGone_links n) (.inl (s.sessionGone_held n)) (fun law => ?_)
          rfl ⟨fun e => (by cases e), fun e => absurd e on⟩
        exact (law.steady.failed.lostSession rfl).rests (by simp [LinkEngine.lostSession, LinkEngine.leaveUp]) rfl rfl rfl
      next again =>
        have begun : (s1.setLink n { s1.links[n] with failures := s1.links[n].failures + 1 }).beginOrder n o =
            s.setLink n { l.ended with
              failedCount := raiseFailed l.failedCount, failures := l.failures + 1
              inFlight := some ⟨o, l.failures + 1 + 1⟩, lck := .clocking } := by
          rw [failed, State.setLink_beginOrder]
          exact State.setLink_setLink s n _ _
        rw [begun]
        rw [failed] at again
        have few : l.failures + 1 ≤ 2 := by
          simp only [Config.maxFailures, LinkEngine.ended] at again
          omega
        refine link_acts ⟨fun law => ?_, rfl, Iff.rfl, fun h => .inl h⟩
        have steady : Steady n { l.ended with failedCount := raiseFailed l.failedCount, failures := l.failures + 1 } :=
          { law.steady.failed with
            failures := few
            noSession := fun e => absurd (session.symm.trans e) (by decide) }
        exact steady.begins on (allowed law _)
    have silent : l.session.isSession = false → Acts s s1 := by
      intro outside
      refine link_acts ⟨fun law => ?_, rfl, Iff.rfl, fun h => .inl h⟩
      have allowed := law.order
      rw [flight] at allowed
      refine law.steady.failed.rests (fun e => ?_) rfl rfl ?_
      · have e : s.links[n].session = .off := e
        rw [e] at allowed
        cases allowed
      · show orderAllowed s.links[n].session none = true
        cases hs : s.links[n].session with
        | off | holdoff d | probing d | up i last start => rfl
        | syncing c i last =>
          rw [show l.session = s.links[n].session from rfl, hs] at outside
          cases outside
    split
    next c i last hs => exact retries .image (by rw [hs]; rfl) fun _ k => by rw [hs]; rfl
    next i last start hs =>
      refine retries x.order (by rw [hs]; rfl) fun law k => ?_
      have allowed := law.order
      rw [show l.inFlight = some x from flight, hs] at allowed
      rw [hs]
      exact allowed
    next hs => exact silent (by rw [hs]; rfl)
    next hs => exact silent (by rw [hs]; rfl)
    next hs => exact silent (by rw [hs]; rfl)

/-- The exchange in flight ends with a reply, good or failed (R144, R146). -/
theorem endExchange_acts (s : State) (n : LinkId) (r : Reply) : Acts s (s.endExchange n r) := by
  cases flight : s.links[n].inFlight with
  | none =>
    simp only [State.endExchange, flight]
    exact .refl
  | some x =>
    cases good : fits x.order r with
    | true =>
      rw [State.endExchange_good flight good]
      exact goodReply_acts flight good
    | false =>
      simp only [State.endExchange, flight, good]
      exact failExchange_acts s n

end

/-! ## Timers, enabling and disabling, edges and acceptances -/

section
variable (n : LinkId) (s : State)

theorem execProbeTimer_acts : ActsTo s (execProbeTimer n s) := by
  refine .next ?_
  split
  next d hs =>
    split
    · exact probe_acts (by rw [hs]; rfl) (by rw [hs]; simp)
    · exact .refl
  all_goals exact .refl

theorem execHoldoffTimer_acts : ActsTo s (execHoldoffTimer n s) := by
  refine .next ?_
  split
  next d hs =>
    split
    · exact probe_acts (by rw [hs]; rfl) (by rw [hs]; simp)
    · exact .refl
  all_goals exact .refl

theorem execPoll_acts : ActsTo s (execPoll n s) := by
  refine .next ?_
  split
  next i last start hs =>
    split
    · rw [State.setSession, State.setLink_beginOrder]
      refine link_acts ⟨fun law => ?_, rfl, ⟨fun e => (by cases e), fun e => by rw [hs] at e; cases e⟩, fun _ => .inl rfl⟩
      have steady : Steady n { s.links[n] with session := .up i last (some s.deskTime) } :=
        { law.steady with
          noSession := fun e => by cases e
          keyCount := fun j hj => law.keyCount j (by rw [hs]; exact hj)
          live := fun _ _ _ => rfl }
      exact steady.begins (by simp) rfl
    · exact .refl
  all_goals exact .refl

theorem execLinkEnable_acts : ActsTo s (execLinkEnable n s) := by
  refine .next ?_
  split
  next handed =>
    extract_lets l s1
    refine Relation.ReflTransGen.trans ?_ (settleLinks_acts _)
    split
    next off =>
      have probed : s1.probe n = s.setLink n { s.links[n] with
          handed := none, session := .probing (later s.deskTime Config.probeTime)
          inFlight := some ⟨.identify, s.links[n].failures + 1⟩, lck := .clocking } := by
        rw [State.probe_eq]
        show (State.setLink s n _).setLink n _ = _
        rw [State.setLink_setLink, State.setLink_link]
        rfl
      rw [probed]
      refine Act.acts (.enable n _ (fun law => ?_) handed rfl (by simp) fun session => ?_)
      · have steady : Steady n { s.links[n] with handed := none } := { law.steady with }
        exact (steady.searches (x := .probing (later s.deskTime Config.probeTime)) (by rw [off]; rfl) rfl).begins
          (by simp) rfl
      · rw [off] at session
        cases session
    next on => exact Act.acts (.enable n _ (fun law => { law with }) handed rfl on id)
  next => exact .refl

theorem execLinkDisable_acts : ActsTo s (execLinkDisable n s) := by
  refine .next ?_
  split
  next handed =>
    refine Relation.ReflTransGen.trans ?_ (settleLinks_acts _)
    have here : (s.setLink n s.links[n].disabled).links[n].session = s.links[n].session := by rw [State.setLink_link]; rfl
    have steady : LinkLaw n s.links[n] → Steady n s.links[n].disabled := fun law =>
      { law.steady with failures := Nat.zero_le 2, noSession := fun _ => rfl }
    have rests : ∀ l : LinkEngine, l = { s.links[n].disabled with session := .off } → s.links[n].session.isSession = false →
        Acts s (s.setLink n l) := by
      rintro l rfl none
      refine Act.acts (.disable n _ (fun law => ?_) handed rfl rfl fun session => ?_)
      · exact ((steady law).searches none rfl).off rfl rfl rfl
      · rw [none] at session
        cases session
    have ends : s.links[n].session.isSession = true →
        Acts s ((s.setLink n s.links[n].disabled).endSession n .off) := by
      intro session
      rw [State.endSession_eq]
      have links := s.sessionGone_links n
      refine (sessionGone_acts s n).tail (.disable n _ (fun law => ?_) (by rw [links]; exact handed) rfl rfl fun _ => ?_)
      · rw [links] at law
        exact ((steady law).lostSession rfl).off rfl rfl rfl
      · exact s.sessionGone_held n
    unfold State.disableSession
    split
    next hs =>
      rw [here] at hs
      refine rests _ ?_ (by rw [hs]; rfl)
      show _ = { s.links[n].disabled with session := .off }
      rw [← hs]
      rfl
    next d hs =>
      rw [State.setSession, State.setLink_link, State.setLink_setLink]
      exact rests _ rfl (by rw [← here, hs]; rfl)
    next d hs =>
      rw [State.setSession, State.setLink_link, State.setLink_setLink]
      exact rests _ rfl (by rw [← here, hs]; rfl)
    next hs => exact ends (by rw [← here, hs]; rfl)
    next hs => exact ends (by rw [← here, hs]; rfl)
  next => exact .refl

/-- An engine that hands on an edge or an acceptance keeps its session. -/
theorem handsOn_act {l : LinkEngine} (session : l.session = s.links[n].session) (handed : l.handed = s.links[n].handed)
    (law : LinkLaw n s.links[n] → LinkLaw n l) : Act s (s.setLink n l) :=
  .link n l ⟨law, handed, by rw [session], fun h => .inl (session ▸ h)⟩

theorem execLampAcceptance_acts : ActsTo s (execLampAcceptance n s) := by
  refine .next ?_
  split
  next => exact .refl
  next a rest _ =>
    extract_lets l s1
    have taken : Acts s s1 := (handsOn_act n s (l := { s.links[n] with acceptances := rest }) rfl rfl fun law => { law with }).acts
    split
    · exact taken.tail (.writeSent n a)
    · exact taken

theorem takeEdge_acts (press : Bool) (q : KeyPos) {act : State → State}
    (acts : ∀ t : State, t.links[panelOf q].session.isSession = true → Act t (act t)) :
    Acts s (s.takeEdge press q act) := by
  unfold State.takeEdge
  split
  next => exact .refl
  next e rest edges =>
    split
    next =>
      extract_lets l s1
      have taken : Acts s s1 := (handsOn_act (panelOf q) s (l := { s.links[panelOf q] with edges := rest }) rfl rfl fun law =>
        { law with
          edges := fun e he => law.edges e (by rw [edges]; exact List.mem_cons_of_mem _ he)
          live := fun e he => law.live e (by rw [edges]; exact List.mem_cons_of_mem _ he) }).acts
      split
      next live =>
        refine taken.tail (acts s1 ?_)
        rw [show s1.links[panelOf q] = _ from State.setLink_link s (panelOf q) _]
        exact Session.isUp_isSession (Bool.and_eq_true_iff.mp live).2
      next => exact taken
    next => exact .refl

theorem execPressEdge_acts (q : KeyPos) : ActsTo s (execPressEdge q s) :=
  .next (takeEdge_acts s true q fun _ session => .press false q session)

theorem execReleaseEdge_acts (q : KeyPos) : ActsTo s (execReleaseEdge q s) :=
  .next (takeEdge_acts s false q fun _ _ => .releaseKey false false q)

end

/-! ## Every command -/

/-- Every command but POWER_ON, DESK_TICK and HOST_LAPSE is a chain of acts; CHIP_SELECT_FALL is one outside the hold of
power-on reset. -/
theorem exec_acts (c : Instr) (s : State) (power : c ≠ .powerOn) (tick : c ≠ .deskTick)
    (lapse : ∀ p, c ≠ .hostLapse p) (fall : ∀ p, c = .chipSelectFall p → s.resetLow = false) : ActsTo s (exec c s) := by
  cases c with
  | powerOn => exact absurd rfl power
  | hostLapse p => exact absurd rfl (lapse p)
  | deskTick => exact absurd rfl tick
  | chipSelectFall p => exact execChipSelectFall_acts p s (fall p rfl)
  | status p b => exact execStatus_acts p s b
  | fetch p => exact execFetch_acts p s
  | answerConsumed p => exact execAnswerConsumed_acts p s
  | notices p => exact execNotices_acts p s
  | noticeRemoval p => exact execNoticeRemoval_acts p s
  | cancel p => exact execCancel_acts p s
  | chipSelectRise p => exact execChipSelectRise_acts p s
  | submit p bytes => exact execSubmit_acts p s bytes
  | claim p => exact execClaim_acts p s
  | release p => exact execRelease_acts p s
  | pin p => exact execPin_acts p s
  | unpin p => exact execUnpin_acts p s
  | fix => exact execFix_acts s
  | lamp p => exact execLamp_acts p s
  | clearTable => exact execClearTable_acts s
  | leave p => exact execLeave_acts p s
  | readBinding p => exact execReadBinding_acts p s
  | yieldAsk p => exact execYieldAsk_acts p s
  | yieldReply p => exact execYieldReply_acts p s
  | askDeadline id => exact execAskDeadline_acts s id
  | openGroup p => exact execOpenGroup_acts p s
  | closeGroup p => exact execCloseGroup_acts p s
  | clearSelection p => exact execClearSelection_acts p s
  | readGroup p => exact execReadGroup_acts p s
  | setProfile => exact execSetProfile_acts s
  | readProfile p => exact execReadProfile_acts p s
  | setPort p => exact execSetPort_acts p s
  | readHeld p => exact execReadHeld_acts p s
  | readPanel p => exact execReadPanel_acts p s
  | setLinks => exact execSetLinks_acts s
  | readDesk p => exact execReadDesk_acts p s
  | deskReset => exact execDeskReset_acts s
  | linkEnable n => exact execLinkEnable_acts n s
  | linkDisable n => exact execLinkDisable_acts n s
  | probeTimer n => exact execProbeTimer_acts n s
  | holdoffTimer n => exact execHoldoffTimer_acts n s
  | poll n => exact execPoll_acts n s
  | ident n t c => exact .next (endExchange_acts s n _)
  | imageReply n keys => exact .next (endExchange_acts s n _)
  | edge n bitS press key => exact .next (endExchange_acts s n _)
  | nothing n => exact .next (endExchange_acts s n _)
  | lost n => exact .next (endExchange_acts s n _)
  | accept n => exact .next (endExchange_acts s n _)
  | again n => exact .next (endExchange_acts s n _)
  | exchangeFailed n why => exact .next (failExchange_acts s n)
  | lampAcceptance n => exact execLampAcceptance_acts n s
  | pressEdge q => exact execPressEdge_acts s q
  | releaseEdge q => exact execReleaseEdge_acts s q
  | repeatDue q => exact execRepeatDue_acts s q

end Sys2Proof.Machine
end

section
/-! PROOF. The steps: what the acts and the few other changes keep, every step keeps. With it the laws of the queues and of
the NOTE lines, the waiting commands and desk time. -/

namespace Sys2Proof.Machine

/-! ## Host lapse (R58) -/

/-- The host just LAPSED, its asks not yet granted. -/
def State.lapsed (s : State) (p : Port) : State :=
  (s.setPort p { s.ports[p] with lapseStart := none, lapseFlag := true }).setPresence p .lapsed

theorem grantIfHeldBy_acts (s : State) (p : Port) (i : AskId) : Acts s (s.grantIfHeldBy p i) := by
  unfold State.grantIfHeldBy
  split
  next => exact .refl
  next a ask =>
    split
    next => exact (Act.grantEntry i a ask).acts
    next => exact .refl

/-- HOST_LAPSE changes nothing, or is a chain of acts from the state in which the host has just LAPSED. -/
theorem exec_hostLapse_acts {s t : State} {p : Port} (h : exec (.hostLapse p) s = .next t) :
    t = s ∨ (s.lapseDue p = true ∧ Acts (s.lapsed p) t) := by
  have h : execHostLapse p s = .next t := h
  unfold execHostLapse at h
  split at h
  next due =>
    refine .inr ⟨due, ?_⟩
    rw [← Host.Outcome.next.inj h]
    exact foldl_acts (fun t i => grantIfHeldBy_acts t p i) _ _
  next => exact .inl (Host.Outcome.next.inj h).symm

/-! ## Steps -/

/-- What a law must bear besides the acts. -/
structure Bears (P : State → Prop) : Prop where
  acts : ∀ s t, Act s t → P s → P t
  tick : ∀ s, P s → P { s with deskTime := s.deskTime + 1 }
  lapsed : ∀ s p, s.lapseDue p = true → P s → P (s.lapsed p)
  /-- A chip select pin falls in the hold of power-on reset. -/
  select : ∀ s p, P s → P (s.setPort p { s.ports[p] with csLow := true })
  hold : ∀ s, P s → P s.holdReset
  leave : ∀ s, P s → P s.leaveReset
  pending : ∀ s l, P s → P { s with pending := l }

theorem Bears.exec {P : State → Prop} (b : Bears P) {c : Instr} {s t : State} (h : exec c s = .next t) (hs : P s) : P t := by
  by_cases power : c = .powerOn
  · subst power
    have h : execPowerOn s = .next t := h
    rw [← Host.Outcome.next.inj h]
    split
    · exact b.leave s hs
    · exact b.hold s hs
  by_cases tick : c = .deskTick
  · subst tick
    have h : execDeskTick s = .next t := h
    rw [← Host.Outcome.next.inj h]
    split
    · exact hs
    · exact b.tick s hs
  by_cases lapse : ∃ p, c = .hostLapse p
  · obtain ⟨p, rfl⟩ := lapse
    obtain rfl | ⟨due, acts⟩ := exec_hostLapse_acts h
    · exact hs
    · exact acts.keeps b.acts (b.lapsed s p due hs)
  by_cases fall : ∃ p, c = .chipSelectFall p ∧ s.resetLow = true
  · obtain ⟨p, rfl, low⟩ := fall
    have h : execChipSelectFall p s = .next t := h
    rw [← Host.Outcome.next.inj h, low]
    split
    · exact hs
    · rw [if_pos rfl]
      exact b.select s p hs
  refine (exec_acts c s power tick (fun p e => lapse ⟨p, e⟩) (fun p e => ?_) t h).keeps b.acts hs
  exact Bool.eq_false_iff.mpr fun low => fall ⟨p, e, low⟩

theorem Bears.step {P : State → Prop} (b : Bears P) {s t : State} (h : step s = .next t) (hs : P s) : P t := by
  unfold Machine.step at h
  split at h
  next => exact Host.Outcome.next.inj h ▸ hs
  next => exact b.exec h (b.pending s _ hs)

/-! ## The hold of power-on reset -/

theorem State.holdReset_ports (s : State) (p : Port) :
    s.holdReset.ports[p] = { PortUnit.initial with csLow := s.ports[p].csLow } := by
  simp [State.holdReset]

/-! ## Walks over the table -/

theorem State.overTable_keeps {α : Type} (f : State → α) {effect : State → KeyPos → State}
    (h : ∀ t q, f (effect t q) = f t) (s : State) : f (s.overTable effect) = f s :=
  foldl_keeps f effect h _ s

theorem State.overTable_queued {effect : State → KeyPos → State} (h : ∀ t q, Queued t (effect t q)) (s : State) :
    Queued s (s.overTable effect) :=
  .foldl h _ s

/-! ## Queues and NOTE lines -/

/-- Each queue grows by offers or loses entries from its head, and each NOTE line stands with its queue and mode or
follows them. -/
structure Noted (s t : State) : Prop where
  queue : ∀ p : Port, Grown s.queues[p] t.queues[p] ∨ t.queues[p] <:+ s.queues[p]
  note : ∀ p : Port,
    (t.queues[p] = s.queues[p] ∧ t.noteLow[p] = s.noteLow[p] ∧ t.ports[p].lineMode = s.ports[p].lineMode) ∨
    t.noteLow[p] = lineDrive t.ports[p].lineMode t.queues[p]

section
variable {s t : State}

theorem Queued.noted (h : Queued s t) : Noted s t where
  queue p := .inl (h.grown p)
  note p := by
    rcases h.note p with ⟨queue, line⟩ | line
    · exact .inl ⟨queue, line, h.mode p⟩
    · exact .inr line

theorem Noted.noteLaw (h : Noted s t) (law : s.NoteLaw) : t.NoteLaw := by
  intro p
  obtain ⟨queue, line, mode⟩ | line := h.note p
  · rw [line, queue, mode]
    exact law p
  · exact line

theorem QueueLaw.suffix {l m : List Notice} (h : QueueLaw l) (suffix : m <:+ l) : QueueLaw m := by
  obtain ⟨k, rfl⟩ := suffix
  have within : ∀ n ∈ m, n ∈ k ++ m := fun n hn => List.mem_append_right k hn
  refine ⟨le_trans (by simp) h.length, fun n hn => ?_, fun e => ?_, fun n hn => h.dropped n (within n hn)⟩
  · have some : m ≠ [] := fun e => by rw [e] at hn; cases hn
    refine h.overrunLast n ?_
    rw [List.dropLast_append_of_ne_nil some]
    exact List.mem_append_right k hn
  · have whole : k = [] := by
      have := h.length
      rw [List.length_append] at this
      exact List.length_eq_zero_iff.mp (by omega)
    subst whole
    exact h.full e

theorem Noted.queueLaw (h : Noted s t) (law : ∀ p : Port, QueueLaw s.queues[p]) (p : Port) : QueueLaw t.queues[p] := by
  obtain grown | suffix := h.queue p
  · exact grown.queueLaw (law p)
  · exact (law p).suffix suffix

end

section
variable (s : State)

theorem State.emptyQueue_port (p k : Port) :
    (s.emptyQueue p).ports[k] = if p = k then s.ports[k].emptied else s.ports[k] := by
  by_cases e : p = k
  · subst e
    simp [State.emptyQueue]
  · rw [if_neg e]
    simp [State.emptyQueue, Fin.val_ne_of_ne e]

/-- A walk that empties queues. -/
theorem emptyQueues (l : List Port) (nodup : l.Nodup) (s : State) (k : Port) :
    let t := l.foldl State.emptyQueue s
    t.queues[k] = (if k ∈ l then [] else s.queues[k]) ∧
    t.noteLow[k] = (if k ∈ l then false else s.noteLow[k]) ∧
    t.ports[k] = if k ∈ l then s.ports[k].emptied else s.ports[k] := by
  have released : ∀ m, lineDrive m [] = false := fun m => by cases m <;> rfl
  induction l generalizing s with
  | nil => simp
  | cons p l ih =>
    obtain ⟨fresh, nodup⟩ := List.nodup_cons.mp nodup
    obtain ⟨queue, line, port⟩ := ih nodup (s.emptyQueue p)
    intro t
    by_cases e : p = k
    · subst e
      simp only [t, List.foldl_cons, queue, line, port, if_neg fresh, List.mem_cons, true_or, if_true,
        State.emptyQueue_port, State.emptyQueue_queues, upd_self, true_and, and_true]
      simp [State.emptyQueue, State.driveNote, released]
    · have others : (k ∈ p :: l) ↔ k ∈ l := by simp [Ne.symm e]
      have line' : (s.emptyQueue p).noteLow[k] = s.noteLow[k] := by
        simp [State.emptyQueue, State.driveNote, Fin.val_ne_of_ne e]
      simp only [t, List.foldl_cons, queue, line, port, others, State.emptyQueue_port, if_neg e,
        State.emptyQueue_queues, upd_ne _ _ _ _ e, line', and_self]

theorem State.deskReset_queue (p : Port) :
    s.deskReset.queues[p] = [] ∧ s.deskReset.noteLow[p] = false := by
  unfold State.deskReset
  extract_lets s1 s2
  obtain ⟨queue, line, -⟩ := emptyQueues _ (List.nodup_finRange 4) s2 p
  rw [if_pos (List.mem_finRange p)] at queue line
  exact ⟨queue, line⟩

theorem lineDrive_nil (m : LineMode) : lineDrive m [] = false := by
  cases m <;> rfl

/-- Every act keeps queues and NOTE lines together. -/
theorem Act.noted {s t : State} (h : Act s t) : Noted s t := by
  have same : ∀ {t : State}, t.queues = s.queues → t.noteLow = s.noteLow → t.ports = s.ports → Noted s t :=
    fun queues lines ports => (Queued.of_ports queues lines ports).noted
  cases h with
  | port p u mode state law => exact (Queued.of_same (s := s) (t := s.setPort p u) rfl rfl (lineMode_setPort mode)).noted
  | fall p =>
    have mode := lineMode_setPort (s := s) (p := p)
      (u := { s.ports[p] with csLow := true, lapseStart := none, txn := some (s.newTransaction p) }) rfl
    have kept : Queued s (s.setPort p { s.ports[p] with
        csLow := true, lapseStart := none, txn := some (s.newTransaction p) }) := .of_same rfl rfl mode
    exact Queued.noted (kept.next (u := State.setPresence _ p .present) rfl rfl rfl)
  | removal p x c k left n q out txn reading counted queue =>
    refine ⟨fun j => ?_, fun j => ?_⟩
    · by_cases e : p = j
      · subst e
        refine .inr ⟨[n], ?_⟩
        simp [State.driveNote, queue]
      · refine .inl ?_
        have other : (({ s with queues := upd s.queues p q }.setPort p
            { s.ports[p] with txn := some { x with left := left, reading := .notices true 0, out := out } }).driveNote
            p).queues[j] = s.queues[j] := by
          simp [State.driveNote, Fin.val_ne_of_ne e]
        rw [other]
        exact .refl
    · by_cases e : p = j
      · subst e
        exact .inr (by simp [State.driveNote])
      · exact .inl (by simp [State.driveNote, Fin.val_ne_of_ne e])
  | answer p st d unasked taken => exact ((Queued.refl s).answer p st d).noted
  | endAsk i a st ask => exact (s.endAsk_queued i a st).noted
  | offer p r kind => exact (s.offer_queued p kind).noted
  | unpin q owned => exact same (by simp) (by simp) (by simp)
  | hold h q st owned fixed =>
    exact ((Queued.of_ports (t := s.setHold h q) (by simp) (by simp) (by simp)).trans
      (State.endAskOn_queued _ q st)).noted
  | lampValue v q owned =>
    exact same (t := State.setLampValue v s q) (by simp [State.setLampValue]) (by simp [State.setLampValue])
      (by simp [State.setLampValue])
  | acquire p a q unasked free room => exact same (by simp) (by simp) (by simp)
  | replace p a q unasked own loose room => exact (s.replacePos_queued a q).noted
  | release announce q owned => exact (s.releasePos_queued announce q).noted
  | grantEntry i a ask => exact (s.grant_queued _ _ _ _ _).noted
  | grantNow p h a q w raw working unasked free owned other room => exact (s.grant_queued _ _ _ _ _).noted
  | entry i p h a q raw d id working valid unasked free owned other hold present room => exact same rfl rfl rfl
  | clearTable =>
    exact ((s.overTable_queued State.clearPos_queued).next (by simp) (by simp) (by simp)).noted
  | leave p unasked =>
    have walk : Queued s (s.overTable (State.leavePos p)) :=
      s.overTable_queued (effect := State.leavePos p) fun t q => t.leavePos_queued p q
    exact (walk.next (by simp) (by simp) (by simp)).noted
  | present p => exact same rfl rfl rfl
  | emptyQueue p =>
    refine ⟨fun j => ?_, fun j => ?_⟩
    · by_cases e : p = j
      · subst e
        rw [State.emptyQueue_queues, upd_self]
        exact .inr (List.nil_suffix)
      · rw [State.emptyQueue_queues, upd_ne _ _ _ _ e]
        exact .inl .refl
    · by_cases e : p = j
      · subst e
        exact .inr (by simp [State.emptyQueue, State.driveNote])
      · exact .inl (by simp [State.emptyQueue, State.driveNote, Fin.val_ne_of_ne e])
  | openGroup g p m free => exact same rfl rfl rfl
  | groupMode g x m group => exact same rfl rfl rfl
  | closeGroup g x group unasked empty => exact same rfl rfl rfl
  | deselect g x group => exact same (by simp) (by simp) (by simp)
  | profile i f ok => exact same rfl rfl rfl
  | writePort p m lapse ok =>
    obtain ⟨ports, lines, -⟩ := s.writePort_ports p m lapse
    have queues : (s.writePort p m lapse).queues = s.queues := by simp
    refine ⟨fun j => .inl (by rw [queues]; exact .refl), fun j => ?_⟩
    rw [queues, ports, lines]
    by_cases e : p = j
    · subst e
      exact .inr (by simp)
    · exact .inl (by simp [Fin.val_ne_of_ne e])
  | writeLinks m e w working taken => exact same rfl rfl rfl
  | link n l change => exact same rfl rfl rfl
  | enable n l law handed taken on session => exact same rfl rfl rfl
  | disable n l law handed taken off session => exact same rfl rfl rfl
  | forgetSent n => exact same (by simp) (by simp) (by simp)
  | writeSent n a => exact same (by simp) (by simp) (by simp)
  | due q r d period found phase =>
    refine Queued.noted ?_
    unfold State.dueAt
    split
    next i o _ _ =>
      have told := (Queued.refl s).key o.host s (k := .repeated) (by decide) q (countHalf (raiseCount r.repeatCount))
        r.resync false
      exact told.next (by simp [State.takeRepeat]) (by simp [State.takeRepeat]) (by simp [State.takeRepeat])
    next => exact .of_ports rfl rfl rfl
  | press resync q session => exact (s.pressKey_queued resync q).noted
  | releaseKey resync lost q => exact (s.releaseKey_queued resync lost q).noted
  | deskReset =>
    refine ⟨fun j => ?_, fun j => .inr ?_⟩
    · rw [(s.deskReset_queue j).1]
      exact .inr (List.nil_suffix)
    · rw [(s.deskReset_queue j).1, (s.deskReset_queue j).2, lineDrive_nil]

end

theorem QueueLaw.nil : QueueLaw [] :=
  ⟨by simp, by simp, by simp, by simp⟩

theorem State.holdReset_queues (s : State) (p : Port) : s.holdReset.queues[p] = [] ∧ s.holdReset.noteLow[p] = false := by
  simp [State.holdReset, State.reset]

theorem State.leaveReset_queues (s : State) (p : Port) :
    s.leaveReset.queues[p] = [] ∧ s.leaveReset.noteLow[p] = false := by
  rw [State.leaveReset_eq]
  exact s.holdReset_queues p

theorem queueLaw_borne : Bears fun s => ∀ p : Port, QueueLaw s.queues[p] where
  acts _ _ h := h.noted.queueLaw
  tick _ h := h
  lapsed _ _ _ h := h
  select _ _ h := h
  hold s _ p := (s.holdReset_queues p).1.symm ▸ .nil
  leave s _ p := (s.leaveReset_queues p).1.symm ▸ .nil
  pending _ _ h := h

/-- Settles O6: queues grow by offers and lose entries from their heads. -/
theorem stepKeepsQueues : Obligations.StepKeepsQueues :=
  fun _ _ law h => queueLaw_borne.step h law

theorem noteLaw_borne : Bears State.NoteLaw where
  acts _ _ h := h.noted.noteLaw
  tick _ h := h
  lapsed s p _ h k := by
    have mode := lineMode_setPort (s := s) (p := p) (u := { s.ports[p] with lapseStart := none, lapseFlag := true }) rfl k
    show s.noteLow[k] = lineDrive ((s.setPort p _).ports[k]).lineMode s.queues[k]
    rw [mode]
    exact h k
  select s p h k := by
    have mode := lineMode_setPort (s := s) (p := p) (u := { s.ports[p] with csLow := true }) rfl k
    show s.noteLow[k] = lineDrive ((s.setPort p _).ports[k]).lineMode s.queues[k]
    rw [mode]
    exact h k
  hold s _ p := by rw [(s.holdReset_queues p).1, (s.holdReset_queues p).2, lineDrive_nil]
  leave s _ p := by rw [(s.leaveReset_queues p).1, (s.leaveReset_queues p).2, lineDrive_nil]
  pending _ _ h := h

/-- Settles O9: a line moves only as its queue or its mode does, and then follows them. -/
theorem stepKeepsNoteLines : Obligations.StepKeepsNoteLines :=
  fun _ _ law h => noteLaw_borne.step h law

end Sys2Proof.Machine
end

section
/-! PROOF. The laws of the binding records, of the held-key set and of the link engines, each kept by every step. -/

namespace Sys2Proof.Machine

/-! ## What the walks over the table do at each position -/

section
variable (s : State)

/-- The grant in a release touches no held record. -/
theorem State.releasePos_held (announce : Bool) (q : KeyPos) :
    (s.releasePos announce q).held = (s.withdraw announce q).held := by
  simp [State.releasePos]

theorem State.grant_held (e : Option AskId) (p h : Port) (a : AttrSet) (q : KeyPos) :
    (s.grant e p h a q).held = (s.withdraw true q).held := by
  simp [State.grant]

/-- A record released is unbound, or the asker's (R25, R48). -/
theorem State.releasePos_record (announce : Bool) (q : KeyPos) :
    (s.releasePos announce q).table[q] =
      match s.askOn q with
      | some (_, a) => (Binding.unbound (s.table[q].gen + 1)).take a.asker a.set
      | none => Binding.unbound (s.table[q].gen + 1) := by
  have unbound : (((s.withdraw announce q).leaveGroup announce q).unbind q).table[q] =
      Binding.unbound (s.table[q].gen + 1) := by
    rw [State.unbind_table, upd_self, (State.leaveGroup_frame _ _ _).1, (State.withdraw_frame _ _ _).1]
  have asks : (((s.withdraw announce q).leaveGroup announce q).unbind q).askOn q = s.askOn q := by
    simp only [State.askOn, State.unbind_frame, State.leaveGroup_frame, State.withdraw_frame]
  rw [State.releasePos, (State.rederive_frame _ _).1]
  cases ask : s.askOn q with
  | none => rw [State.grantReleased_none _ (asks.trans ask), unbound]
  | some e => rw [State.grantReleased_table _ (asks.trans ask), upd_self, unbound]

theorem State.clearPos_table (q : KeyPos) : (s.clearPos q).table =
    if s.table[q].owner = none then s.table else upd s.table q (Binding.unbound (s.table[q].gen + 1)) := by
  unfold State.clearPos
  split
  next free => rw [if_pos free]
  next h owned =>
    rw [if_neg (by rw [owned]; exact Option.some_ne_none h)]
    simp

theorem State.clearPos_held (q : KeyPos) : (s.clearPos q).held =
    if s.table[q].owner = none then s.held else (s.withdraw true q).held := by
  unfold State.clearPos
  split
  next free => rw [if_pos free]
  next h owned =>
    rw [if_neg (by rw [owned]; exact Option.some_ne_none h)]
    simp

/-- A class with its latch, where it has one, OFF (R17). -/
def KeyClass.unlatched : KeyClass → KeyClass
  | .toggle _ => .toggle false
  | .momentary => .momentary
  | .pressOnly => .pressOnly
  | .repeating i => .repeating i
  | .select g => .select g

/-- A binding after DESK RESET: unbound, or FIXED with its latch OFF (R17). -/
def Binding.deskReset (b : Binding) : Binding :=
  if b.owner = none then b
  else if b.hold = .fixed then { b with cls := b.cls.unlatched }
  else Binding.unbound (b.gen + 1)

theorem State.resetPos_free {q : KeyPos} (h : s.table[q].owner = none) : s.resetPos q = s := by
  simp only [State.resetPos, h]

theorem KeyClass.unlatched_same {c : KeyClass} (h : ∀ l, c ≠ .toggle l) : c.unlatched = c := by
  cases c with
  | toggle l => exact absurd rfl (h l)
  | momentary | pressOnly | repeating i | select g => rfl

theorem State.resetPos_fixed {q : KeyPos} (h : s.table[q].owner ≠ none) (fixed : s.table[q].hold = .fixed) :
    s.resetPos q = s.setBinding q { s.table[q] with cls := s.table[q].cls.unlatched } := by
  obtain ⟨k, owned⟩ := Option.ne_none_iff_exists'.mp h
  by_cases toggle : ∃ l, s.table[q].cls = .toggle l
  · obtain ⟨l, cls⟩ := toggle
    simp only [State.resetPos, owned, if_pos fixed, cls]
    rfl
  · have other : ∀ l, s.table[q].cls ≠ .toggle l := fun l e => toggle ⟨l, e⟩
    have stays : s.resetPos q = s := by
      simp only [State.resetPos, owned, if_pos fixed]
      split
      next l cls => exact absurd cls (other l)
      all_goals rfl
    rw [KeyClass.unlatched_same other, stays]
    exact (s.setBinding_self q).symm

theorem State.resetPos_loose {q : KeyPos} (h : s.table[q].owner ≠ none) (loose : s.table[q].hold ≠ .fixed) :
    s.resetPos q = (s.unbind q).resetAskOn q s.table[q] := by
  obtain ⟨k, owned⟩ := Option.ne_none_iff_exists'.mp h
  simp only [State.resetPos, owned, if_neg loose]

theorem State.resetPos_table (q : KeyPos) : (s.resetPos q).table = upd s.table q s.table[q].deskReset := by
  unfold Binding.deskReset
  split
  next free => rw [State.resetPos_free s free, upd_get]
  next owned =>
    split
    next fixed => rw [State.resetPos_fixed s owned fixed]; rfl
    next loose => rw [State.resetPos_loose s owned loose, (State.resetAskOn_frame _ _ _).1]; rfl

theorem State.resetRecords_table : s.resetRecords.table = s.table := by
  simp only [State.resetRecords]

theorem State.resetLamps_table : s.resetLamps.table = s.table := by
  simp only [State.resetLamps]

theorem State.resetLamps_held : s.resetLamps.held = s.held := by
  simp only [State.resetLamps]

/-- What neither the queues nor the sessions read. -/
theorem State.deskReset_keeps {α : Type} (f : State → α) (sessions : ∀ t n, f (State.resetSession t n) = f t)
    (queues : ∀ t p, f (State.emptyQueue t p) = f t) :
    f s.deskReset = f ((s.overTable State.resetPos).resetRecords).resetLamps := by
  unfold State.deskReset
  extract_lets s1 s2
  rw [foldl_keeps f State.emptyQueue queues, foldl_keeps f State.resetSession sessions]

theorem State.deskReset_table : s.deskReset.table = (s.overTable State.resetPos).table := by
  rw [State.deskReset_keeps s State.table (by simp) (by simp), State.resetLamps_table, State.resetRecords_table]

theorem State.deskReset_held : s.deskReset.held = [] := by
  rw [State.deskReset_keeps s State.held (by simp) (by simp), State.resetLamps_held]
  simp only [State.resetRecords]

end

/-! ## Binding records (R6, R11) -/

theorem BindingLaw.of_unbound (g : Byte) : BindingLaw (Binding.unbound g) :=
  ⟨fun _ => rfl, fun e => by cases e⟩

theorem BindingLaw.take (b : Binding) (h : Port) (a : AttrSet) : BindingLaw (b.take h a) :=
  ⟨fun e => (by cases e), fun e => by cases e⟩

/-- A record that keeps its owner, owned, and is FIXED only where it was and keeps no group. -/
theorem BindingLaw.of_owned {b : Binding} (owned : b.owner ≠ none) (fixed : b.hold = .fixed → b.cls.group? = none) :
    BindingLaw b :=
  ⟨fun e => absurd e owned, fun e => ⟨Option.isSome_iff_ne_none.mpr owned, fixed e⟩⟩

/-- The binding records are lawful. -/
def State.BindingsLaw (s : State) : Prop :=
  ∀ q : KeyPos, BindingLaw s.table[q]

section
variable {s t : State}

theorem State.BindingsLaw.of_upd (law : s.BindingsLaw) {q : KeyPos} {b : Binding} (h : t.table = upd s.table q b)
    (hb : BindingLaw b) : t.BindingsLaw := by
  intro k
  rw [h]
  by_cases e : q = k
  · subst e
    rwa [upd_self]
  · rw [upd_ne _ _ _ _ e]
    exact law k

theorem State.BindingsLaw.foldl {effect : State → KeyPos → State}
    (h : ∀ t q, t.BindingsLaw → (effect t q).BindingsLaw) (law : s.BindingsLaw) : (s.overTable effect).BindingsLaw := by
  unfold State.overTable
  generalize List.finRange 1024 = l
  induction l generalizing s with
  | nil => exact law
  | cons q l ih => exact ih (h s q law)

theorem State.releasePos_bindings (law : s.BindingsLaw) (announce : Bool) (q : KeyPos) :
    (s.releasePos announce q).BindingsLaw := by
  intro k
  by_cases e : k = q
  · subst e
    rw [State.releasePos_record]
    split
    · exact .take _ _ _
    · exact .of_unbound _
  · rw [State.releasePos_other_table _ announce e]
    exact law k

theorem State.clearPos_bindings (law : s.BindingsLaw) (q : KeyPos) : (s.clearPos q).BindingsLaw := by
  have table := s.clearPos_table q
  split at table
  next => intro k; rw [table]; exact law k
  next => exact law.of_upd table (.of_unbound _)

theorem BindingLaw.deskReset {b : Binding} (law : BindingLaw b) : BindingLaw b.deskReset := by
  unfold Binding.deskReset
  split
  next => exact law
  next owned =>
    split
    next fixed =>
      refine .of_owned owned fun _ => ?_
      have loose := (law.fixed fixed).2
      cases cls : b.cls with
      | select g =>
        rw [cls] at loose
        cases loose
      | momentary | pressOnly | repeating i | toggle l => rfl
    next => exact .of_unbound _

theorem State.resetPos_bindings (law : s.BindingsLaw) (q : KeyPos) : (s.resetPos q).BindingsLaw :=
  law.of_upd (s.resetPos_table q) (law q).deskReset

theorem Binding.pressed_hold (b : Binding) : b.pressed.hold = b.hold ∧ b.pressed.cls.group? = b.cls.group? := by
  unfold Binding.pressed
  split
  next l _ cls => exact ⟨rfl, by rw [cls]; rfl⟩
  next => exact ⟨rfl, rfl⟩

/-- A press turns a latch over and writes no other record. -/
theorem State.pressKey_table (s : State) (resync : Bool) (q : KeyPos) : (s.pressKey resync q).table = s.table ∨
    (s.table[q].owner ≠ none ∧ (s.pressKey resync q).table = upd s.table q s.table[q].pressed) := by
  by_cases held : ∃ r ∈ s.held, r.pos = q
  · exact .inl (by rw [State.pressKey_held held])
  have none : ∀ r ∈ s.held, r.pos ≠ q := fun r hr e => held ⟨r, hr, e⟩
  by_cases room : s.held.length < 16
  · cases ho : s.table[q].owner with
    | none =>
      rw [State.pressKey_unowned none room ho]
      exact .inl (by simp [State.withNew])
    | some h =>
      cases group : s.table[q].cls.group? with
      | none => exact .inr ⟨Option.some_ne_none h, (State.pressKey_opens none room ho group resync).1⟩
      | some g =>
        have select := (KeyClass.group?_eq_some_iff _ _).mp group
        have press : (s.withNew q resync).pressClass q h resync = (s.withNew q resync).pressSelect q h g resync := by
          have select : (s.withNew q resync).table[q].cls = .select g := select
          simp only [State.pressClass, select]
        rw [State.pressKey_owned none room ho, press]
        exact .inl (by simp [State.withNew])
  · have full : 16 ≤ s.held.length := by omega
    cases ho : s.table[q].owner with
    | none => exact .inl (by rw [State.pressKey_full_unowned none full ho])
    | some h => exact .inl (by rw [State.pressKey_full_owned none full ho]; simp)

theorem State.replace_group (b : Binding) (a : AttrSet) : (b.replace a).owner = b.owner ∧ (b.replace a).hold = b.hold ∧
    (b.replace a).gen = b.gen :=
  ⟨rfl, rfl, rfl⟩

theorem Act.bindings {s t : State} (h : Act s t) (law : s.BindingsLaw) : t.BindingsLaw := by
  have same : ∀ {t : State}, t.table = s.table → t.BindingsLaw := fun table q => by rw [table]; exact law q
  cases h with
  | unpin q owned => exact law.of_upd rfl (.of_owned owned fun e => by cases e)
  | hold h q st owned fixed =>
    refine law.of_upd ((State.endAskOn_frame _ _ _).1.trans rfl) (.of_owned owned fixed)
  | lampValue v q owned =>
    exact law.of_upd ((State.rederive_frame _ _).1.trans rfl) (.of_owned owned fun e => ((law q).fixed e).2)
  | acquire p a q unasked free room => exact law.of_upd (s.acquire_table p a q) (.take _ p a)
  | replace p a q unasked own loose room =>
    refine law.of_upd (s.replacePos_table a q) (.of_owned ?_ fun e => absurd e loose)
    rw [(State.replace_group _ a).1, own]
    exact Option.some_ne_none p
  | release announce q owned => exact State.releasePos_bindings law announce q
  | grantEntry i a ask => exact law.of_upd (s.grant_table _ _ _ _ _) (.take _ _ _)
  | grantNow p h a q w raw working unasked free owned other room => exact law.of_upd (s.grant_table _ _ _ _ _) (.take _ _ _)
  | clearTable =>
    intro q
    rw [(State.freeGroups_frame _).1]
    exact law.foldl (fun t q h => State.clearPos_bindings h q) q
  | leave p unasked =>
    intro q
    rw [(State.freeGroupsOf_frame _ p).1]
    refine law.foldl (effect := State.leavePos p) (fun t q h => ?_) q
    unfold State.leavePos
    split
    · exact State.releasePos_bindings h false q
    · exact h
  | press resync q session =>
    obtain table | ⟨owned, table⟩ := s.pressKey_table resync q
    · exact same table
    · obtain ⟨hold, group⟩ := s.table[q].pressed_hold
      refine law.of_upd table (.of_owned ?_ fun e => ?_)
      · rwa [s.table[q].pressed_eq.2.2]
      · rw [group]
        exact ((law q).fixed (hold.symm.trans e)).2
  | deskReset =>
    intro q
    rw [State.deskReset_table]
    exact law.foldl (fun t q h => State.resetPos_bindings h q) q
  | due q r d period found phase =>
    refine same ?_
    unfold State.dueAt
    split <;> simp [State.takeRepeat]
  | removal => exact same (by simp)
  | profile => exact same rfl
  | _ => exact same (by simp)

end

theorem State.holdReset_table (s : State) (q : KeyPos) : s.holdReset.table[q] = Binding.unbound 0 := by
  simp [State.holdReset, State.reset]

theorem State.leaveReset_table (s : State) (q : KeyPos) : s.leaveReset.table[q] = Binding.unbound 0 := by
  rw [State.leaveReset_eq]
  exact s.holdReset_table q

theorem bindingsLaw_borne : Bears State.BindingsLaw where
  acts _ _ h := h.bindings
  tick _ h := h
  lapsed _ _ _ h := h
  select _ _ h := h
  hold s _ q := s.holdReset_table q ▸ .of_unbound 0
  leave s _ q := s.leaveReset_table q ▸ .of_unbound 0
  pending _ _ h := h

/-- Settles O10: a record is written unbound, taken by an owner, or keeps its owner. -/
theorem stepKeepsBindings : Obligations.StepKeepsBindings :=
  fun _ _ law h => bindingsLaw_borne.step h law

end Sys2Proof.Machine
end

section
/-! PROOF. The laws of the held-key set: its places (R63), the hosts its records are opened to (R69), and the form of a
record (R62). -/

namespace Sys2Proof.Machine

/-! ## Places -/

section
variable {s t : State}

/-- How many records there are, and one a position, is read from their places. -/
theorem State.HeldLaw.of_places (law : s.HeldLaw) (h : t.held.map HeldRecord.pos = s.held.map HeldRecord.pos) :
    t.HeldLaw where
  length := by
    have := congrArg List.length h
    rw [List.length_map, List.length_map] at this
    exact this ▸ law.length
  distinct := h ▸ law.distinct

theorem State.HeldLaw.filter (law : s.HeldLaw) {f : HeldRecord → Bool} (h : t.held = s.held.filter f) : t.HeldLaw where
  length := h ▸ (List.length_filter_le _ _).trans law.length
  distinct := by
    rw [h]
    exact law.distinct.sublist (List.filter_sublist.map _)

/-- What a press does to the set: nothing, or a record behind the newest, unopened or opened to the owner (R63, R64). -/
theorem State.pressKey_held_cases (s : State) (resync : Bool) (q : KeyPos) : (s.pressKey resync q).held = s.held ∨
    ((∀ r ∈ s.held, r.pos ≠ q) ∧ s.held.length < 16 ∧ ∃ r, (s.pressKey resync q).held = s.held ++ [r] ∧ r.pos = q ∧
      (∀ o ∈ r.openedTo, s.table[q].owner = some o.host ∧ s.table[q].gen = o.gen) ∧ HeldForm r) := by
  by_cases held : ∃ r ∈ s.held, r.pos = q
  · exact .inl (by rw [State.pressKey_held held])
  have fresh : ∀ r ∈ s.held, r.pos ≠ q := fun r hr e => held ⟨r, hr, e⟩
  by_cases room : s.held.length < 16
  · refine .inr ⟨fresh, room, ?_⟩
    have made : HeldForm (newRecord q s.deskTime resync) :=
      ⟨fun e => (by cases e), fun e => absurd rfl e, fun x e => (by cases e), Nat.zero_le _⟩
    have opened : ∀ (k : Port) (due : Bool) (ph : Phase), s.table[q].owner = some k → (ph ≠ .held → due = true) →
        ph.period = none → ((newRecord q s.deskTime resync).opened k s.table[q].gen due ph).pos = q ∧
        (∀ o ∈ ((newRecord q s.deskTime resync).opened k s.table[q].gen due ph).openedTo,
          s.table[q].owner = some o.host ∧ s.table[q].gen = o.gen) ∧
        HeldForm ((newRecord q s.deskTime resync).opened k s.table[q].gen due ph) := by
      intro k due ph owner closes period
      refine ⟨rfl, fun o ho => ?_, fun _ => rfl, closes, fun x hx => ?_, Nat.zero_le _⟩
      · obtain rfl := Option.some.inj ho
        exact ⟨owner, rfl⟩
      · rw [show ((newRecord q s.deskTime resync).opened k s.table[q].gen due ph).phase = ph from rfl, period] at hx
        cases hx
    have silent : ∀ t : State, t.held = (s.withNew q resync).held → (∃ r, t.held = s.held ++ [r] ∧ r.pos = q ∧
        (∀ o ∈ r.openedTo, s.table[q].owner = some o.host ∧ s.table[q].gen = o.gen) ∧ HeldForm r) :=
      fun t ht => ⟨_, ht, rfl, fun o ho => (by cases ho), made⟩
    cases owner : s.table[q].owner with
    | none =>
      rw [State.pressKey_unowned fresh room owner]
      simpa only [owner] using silent _ (by simp)
    | some k =>
      rw [← owner]
      cases group : s.table[q].cls.group? with
      | none =>
        obtain ⟨-, held, -⟩ := State.pressKey_opens fresh room owner group resync
        refine ⟨_, held, opened k _ _ owner (fun moves => ?_) ?_⟩
        · cases cls : s.table[q].cls with
          | repeating i => rfl
          | momentary | pressOnly | toggle l | select g => rw [cls] at moves; exact absurd rfl moves
        · cases s.table[q].cls <;> rfl
      | some g =>
        have select := (KeyClass.group?_eq_some_iff _ _).mp group
        rw [State.pressKey_select fresh room owner select resync]
        have opens : ∀ t : State, t.held = (s.withNew q resync).held → t.table = s.table →
            ∃ r, (t.openRecord q k false .held .selected (countHalf g.1) resync).held = s.held ++ [r] ∧ r.pos = q ∧
              (∀ o ∈ r.openedTo, s.table[q].owner = some o.host ∧ s.table[q].gen = o.gen) ∧ HeldForm r :=
          fun t ht table => ⟨_, by rw [State.openRecord_held fresh ht, table], opened k false .held owner nofun rfl⟩
        simp only [(State.rederive_frame _ _).2.1]
        cases hg : s.groups[g] with
        | none =>
          have same : (s.withNew q resync).pressSelect q k g resync = s.withNew q resync := by
            have hg : (s.withNew q resync).groups[g] = none := hg
            simp only [State.pressSelect, hg]
          rw [same]
          exact silent _ rfl
        | some x =>
          have hg : (s.withNew q resync).groups[g] = some x := hg
          cases sel : x.selected with
          | none =>
            rw [State.pressSelect_first hg sel]
            exact opens _ rfl rfl
          | some old =>
            by_cases same : old = q
            · subst same
              cases mode : x.mode with
              | strict =>
                rw [State.pressSelect_strict hg sel mode]
                exact silent _ rfl
              | loose =>
                rw [State.pressSelect_loose hg sel mode]
                exact silent _ (by simp)
            · rw [State.pressSelect_change hg sel same]
              simp only [(State.rederive_frame _ _).2.1]
              exact opens _ (by simp) (by simp; rfl)
  · have full : 16 ≤ s.held.length := by omega
    refine .inl ?_
    cases owner : s.table[q].owner with
    | none => rw [State.pressKey_full_unowned fresh full owner]
    | some k => rw [State.pressKey_full_owned fresh full owner]; simp

theorem State.pressKey_heldLaw (law : s.HeldLaw) (resync : Bool) (q : KeyPos) : (s.pressKey resync q).HeldLaw := by
  obtain same | ⟨fresh, room, r, held, hq, -⟩ := s.pressKey_held_cases resync q
  · exact law.of_places (by rw [same])
  · refine ⟨?_, ?_⟩
    · rw [held, List.length_append, List.length_singleton]
      omega
    · rw [held, List.map_append, List.map_singleton, hq]
      refine List.nodup_append.mpr ⟨law.distinct, by simp, fun x hx y hy e => ?_⟩
      obtain ⟨z, hz, rfl⟩ := List.mem_map.mp hx
      rw [List.mem_singleton.mp hy] at e
      exact fresh z hz e

/-- The places of the held records, as every act but those of the event engine keeps them. -/
theorem State.dueAt_held (s : State) (q : KeyPos) (r : HeldRecord) (d : Time) (period : Profile → Nat) :
    ∃ f : HeldRecord → HeldRecord, (∀ x, (f x).pos = x.pos ∧ (f x).openedTo = x.openedTo) ∧
      (s.dueAt q r d period).held = s.held.map (fun x => if x.pos = q then f x else x) := by
  unfold State.dueAt
  split
  next i o _ _ => exact ⟨fun x => x.repeated s.profiles[i] d (period s.profiles[i]), fun _ => ⟨rfl, rfl⟩, by
    simp [State.takeRepeat]⟩
  next => exact ⟨HeldRecord.stopped, fun _ => ⟨rfl, rfl⟩, rfl⟩

theorem map_if_pos {l : List HeldRecord} {q : KeyPos} {f : HeldRecord → HeldRecord} (h : ∀ x, (f x).pos = x.pos) :
    (l.map (fun x => if x.pos = q then f x else x)).map HeldRecord.pos = l.map HeldRecord.pos :=
  map_pos_of_kept fun x => by split <;> simp [h]

theorem State.releasePos_places (s : State) (announce : Bool) (q : KeyPos) :
    (s.releasePos announce q).held.map HeldRecord.pos = s.held.map HeldRecord.pos := by
  rw [State.releasePos_held, State.withdraw_places]

theorem State.leavePos_places (s : State) (p : Port) (q : KeyPos) :
    (State.leavePos p s q).held.map HeldRecord.pos = s.held.map HeldRecord.pos := by
  unfold State.leavePos
  split
  · exact s.releasePos_places false q
  · rfl

theorem State.clearPos_places (s : State) (q : KeyPos) :
    (s.clearPos q).held.map HeldRecord.pos = s.held.map HeldRecord.pos := by
  rw [State.clearPos_held]
  split
  · rfl
  · exact s.withdraw_places true q

/-- The events that make or remove a held record are those of the event engine and DESK RESET. -/
theorem Act.places {s t : State} (h : Act s t) : t.held.map HeldRecord.pos = s.held.map HeldRecord.pos ∨
    (∃ resync q, s.links[panelOf q].session.isSession = true ∧ t = s.pressKey resync q) ∨
    (∃ resync lost q, t = s.releaseKey resync lost q) ∨ t.held = [] := by
  have same : t.held = s.held → t.held.map HeldRecord.pos = s.held.map HeldRecord.pos := fun e => by rw [e]
  cases h with
  | press resync q session => exact .inr (.inl ⟨resync, q, session, rfl⟩)
  | releaseKey resync lost q => exact .inr (.inr (.inl ⟨resync, lost, q, rfl⟩))
  | deskReset => exact .inr (.inr (.inr s.deskReset_held))
  | release announce q owned => exact .inl (s.releasePos_places announce q)
  | grantEntry i a ask => exact .inl (by rw [State.grant_held, State.withdraw_places])
  | grantNow p h a q w raw working unasked free owned other room =>
    exact .inl (by rw [State.grant_held, State.withdraw_places])
  | clearTable =>
    refine .inl ?_
    rw [(State.freeGroups_frame _).2.1]
    exact State.overTable_keeps (fun t => t.held.map HeldRecord.pos) State.clearPos_places s
  | leave p unasked =>
    refine .inl ?_
    rw [(State.freeGroupsOf_frame _ p).2.1]
    exact State.overTable_keeps (fun t => t.held.map HeldRecord.pos) (fun t q => t.leavePos_places p q) s
  | due q r d period found phase =>
    obtain ⟨f, kept, held⟩ := s.dueAt_held q r d period
    exact .inl (by rw [held, map_if_pos fun x => (kept x).1])
  | lampValue v q owned => exact .inl (same (by simp [State.setLampValue]))
  | profile i f ok => exact .inl (same rfl)
  | _ => exact .inl (same (by simp))

theorem Act.heldLaw {s t : State} (h : Act s t) (law : s.HeldLaw) : t.HeldLaw := by
  obtain places | ⟨resync, q, -, rfl⟩ | ⟨resync, lost, q, rfl⟩ | empty := h.places
  · exact law.of_places places
  · exact State.pressKey_heldLaw law resync q
  · exact law.filter (s.releaseKey_held resync lost q)
  · exact ⟨by rw [empty]; simp, by rw [empty]; simp⟩

/-! ## The hosts that records are opened to (R69) -/

/-- A record that no change of owner touches, or that a withdrawal closed. -/
theorem State.OpenLaw.of_withdraw (law : s.OpenLaw) (one : s.HeldLaw) {announce : Bool} {q : KeyPos}
    (held : t.held = (s.withdraw announce q).held) (table : ∀ k : KeyPos, k ≠ q → t.table[k] = s.table[k]) : t.OpenLaw := by
  intro r hr o ho
  rw [held] at hr
  by_cases here : r.pos = q
  · rw [State.withdraw_loose one hr here] at ho
    cases ho
  · obtain hr | ⟨x, hx, hq, rfl⟩ := State.withdraw_mem hr
    · rw [table _ here]
      exact law r hr o ho
    · exact absurd hq here

theorem State.OpenLaw.of_same (law : s.OpenLaw) (held : t.held = s.held)
    (table : ∀ k : KeyPos, t.table[k].owner = s.table[k].owner ∧ t.table[k].gen = s.table[k].gen) : t.OpenLaw := by
  intro r hr o ho
  rw [held] at hr
  rw [(table r.pos).1, (table r.pos).2]
  exact law r hr o ho

theorem State.OpenLaw.of_table (law : s.OpenLaw) (held : t.held = s.held) (table : t.table = s.table) : t.OpenLaw :=
  law.of_same held fun k => by rw [table]; exact ⟨rfl, rfl⟩

theorem upd_owner_gen {v w : Vector Binding 1024} {q : KeyPos} {b : Binding} (h : w = upd v q b)
    (owner : b.owner = v[q].owner) (gen : b.gen = v[q].gen) (k : KeyPos) :
    w[k].owner = v[k].owner ∧ w[k].gen = v[k].gen := by
  subst h
  by_cases e : q = k
  · subst e
    rw [upd_self]
    exact ⟨owner, gen⟩
  · rw [upd_ne _ _ _ _ e]
    exact ⟨rfl, rfl⟩

theorem State.releasePos_openLaw (law : s.OpenLaw) (one : s.HeldLaw) (announce : Bool) (q : KeyPos) :
    (s.releasePos announce q).OpenLaw :=
  law.of_withdraw one (s.releasePos_held announce q) fun _ h => s.releasePos_other_table announce h

theorem State.grant_openLaw (law : s.OpenLaw) (one : s.HeldLaw) (e : Option AskId) (p h : Port) (a : AttrSet)
    (q : KeyPos) : (s.grant e p h a q).OpenLaw :=
  law.of_withdraw one (s.grant_held e p h a q) fun k hk => by rw [State.grant_table, upd_ne _ _ _ _ (Ne.symm hk)]

theorem State.clearPos_openLaw (law : s.OpenLaw) (one : s.HeldLaw) (q : KeyPos) : (s.clearPos q).OpenLaw := by
  have table := s.clearPos_table q
  have held := s.clearPos_held q
  split at table
  next free =>
    rw [if_pos free] at held
    exact law.of_table held table
  next owned =>
    rw [if_neg owned] at held
    exact law.of_withdraw one held fun k hk => by rw [table, upd_ne _ _ _ _ (Ne.symm hk)]

/-- One record a position, and each opened to the owner. -/
def State.HeldSet (s : State) : Prop :=
  s.HeldLaw ∧ s.OpenLaw

/-- What each position of a walk keeps, the walk keeps. -/
theorem State.overTable_induct {P : State → Prop} {effect : State → KeyPos → State} (h : ∀ t q, P t → P (effect t q))
    (hs : P s) : P (s.overTable effect) := by
  unfold State.overTable
  generalize List.finRange 1024 = l
  induction l generalizing s with
  | nil => exact hs
  | cons q l ih => exact ih (h s q hs)

theorem State.pressKey_openLaw (law : s.OpenLaw) (resync : Bool) (q : KeyPos) : (s.pressKey resync q).OpenLaw := by
  have table : ∀ k : KeyPos, (s.pressKey resync q).table[k].owner = s.table[k].owner ∧
      (s.pressKey resync q).table[k].gen = s.table[k].gen := by
    obtain same | ⟨-, turned⟩ := s.pressKey_table resync q
    · exact fun k => by rw [same]; exact ⟨rfl, rfl⟩
    · obtain ⟨gen, -, owner⟩ := s.table[q].pressed_eq
      exact upd_owner_gen turned owner gen
  obtain same | ⟨-, -, r, held, hq, opened, -⟩ := s.pressKey_held_cases resync q
  · exact law.of_same same table
  · intro x hx o ho
    rw [(table x.pos).1, (table x.pos).2]
    rw [held] at hx
    obtain hx | hx := List.mem_append.mp hx
    · exact law x hx o ho
    · rw [List.mem_singleton.mp hx] at ho ⊢
      rw [hq]
      exact opened o ho

theorem Act.openLaw {s t : State} (h : Act s t) (law : s.OpenLaw) (one : s.HeldLaw) : t.OpenLaw := by
  cases h with
  | unpin q owned => exact law.of_same rfl (upd_owner_gen (v := s.table) rfl rfl rfl)
  | hold h q st owned fixed =>
    exact law.of_same (by simp) (upd_owner_gen (v := s.table) ((State.endAskOn_frame _ _ _).1.trans rfl) rfl rfl)
  | lampValue v q owned =>
    exact law.of_same (by simp [State.setLampValue])
      (upd_owner_gen (v := s.table) ((State.rederive_frame _ _).1.trans rfl) rfl rfl)
  | acquire p a q unasked free room =>
    intro r hr o ho
    have hr : r ∈ s.held := by simpa using hr
    by_cases here : r.pos = q
    · have owner := (law r hr o ho).1
      subst here
      rw [free] at owner
      cases owner
    · rw [s.acquire_table p a q, upd_ne _ _ _ _ (Ne.symm here)]
      exact law r hr o ho
  | replace p a q unasked own loose room =>
    exact law.of_same (by simp) (upd_owner_gen (v := s.table) (s.replacePos_table a q) rfl rfl)
  | release announce q owned => exact State.releasePos_openLaw law one announce q
  | grantEntry i a ask => exact State.grant_openLaw law one _ _ _ _ _
  | grantNow p h a q w raw working unasked free owned other room => exact State.grant_openLaw law one _ _ _ _ _
  | clearTable =>
    have walk : (s.overTable State.clearPos).HeldSet := State.overTable_induct
      (fun t q ht => ⟨ht.1.of_places (t.clearPos_places q), State.clearPos_openLaw ht.2 ht.1 q⟩) ⟨one, law⟩
    exact walk.2.of_table (by simp) (by simp)
  | leave p unasked =>
    have walk : (s.overTable (State.leavePos p)).HeldSet := by
      refine State.overTable_induct (effect := State.leavePos p) (fun t q ht => ?_) ⟨one, law⟩
      refine ⟨ht.1.of_places (t.leavePos_places p q), ?_⟩
      unfold State.leavePos
      split
      · exact State.releasePos_openLaw ht.2 ht.1 false q
      · exact ht.2
    exact walk.2.of_table (by simp) (by simp)
  | due q r d period found phase =>
    obtain ⟨f, kept, held⟩ := s.dueAt_held q r d period
    have table : (s.dueAt q r d period).table = s.table := by simp
    intro x hx o ho
    rw [held] at hx
    obtain ⟨y, hy, rfl⟩ := List.mem_map.mp hx
    rw [table]
    split at ho
    next here =>
      simp only [if_pos here, (kept y).1]
      exact law y hy o ((kept y).2 ▸ ho)
    next away =>
      rw [if_neg away]
      exact law y hy o ho
  | press resync q session => exact State.pressKey_openLaw law resync q
  | releaseKey resync lost q =>
    intro r hr o ho
    rw [State.releaseKey_held] at hr
    rw [(State.releaseKey_frame s resync lost q).1]
    exact law r (List.mem_of_mem_filter hr) o ho
  | deskReset =>
    intro r hr
    rw [State.deskReset_held] at hr
    cases hr
  | profile i f ok => exact law.of_table rfl rfl
  | removal => exact law.of_table (by simp) (by simp)
  | _ => exact law.of_table (by simp) (by simp)

end

theorem State.holdReset_held (s : State) : s.holdReset.held = [] :=
  rfl

theorem State.leaveReset_held (s : State) : s.leaveReset.held = [] := by
  rw [State.leaveReset_eq]
  rfl

theorem State.heldSet_of_empty {s : State} (h : s.held = []) : s.HeldSet :=
  ⟨⟨by rw [h]; simp, by rw [h]; simp⟩, fun r hr => by rw [h] at hr; cases hr⟩

theorem heldSet_borne : Bears State.HeldSet where
  acts _ _ h law := ⟨h.heldLaw law.1, h.openLaw law.2 law.1⟩
  tick _ h := ⟨h.1.of_places rfl, h.2⟩
  lapsed _ _ _ h := ⟨h.1.of_places rfl, h.2⟩
  select _ _ h := ⟨h.1.of_places rfl, h.2⟩
  hold s _ := State.heldSet_of_empty s.holdReset_held
  leave s _ := State.heldSet_of_empty s.leaveReset_held
  pending _ _ h := ⟨h.1.of_places rfl, h.2⟩

/-- Settles O7: places change by presses and releases alone, and a withdrawal comes before each change of owner. -/
theorem stepKeepsHeldSet : Obligations.StepKeepsHeldSet :=
  fun _ _ one law h => heldSet_borne.step h ⟨one, law⟩

/-! ## The panels that have records (R63) -/

theorem State.HeldPanelLaw.of_places {s t : State} (law : s.HeldPanelLaw)
    (places : t.held.map HeldRecord.pos = s.held.map HeldRecord.pos)
    (sessions : ∀ r ∈ s.held, s.links[panelOf r.pos].session.isSession = true →
      t.links[panelOf r.pos].session.isSession = true) : t.HeldPanelLaw := by
  intro r hr
  obtain ⟨x, hx, e⟩ := List.mem_map.mp (places ▸ List.mem_map_of_mem hr)
  have := sessions x hx (law x hx)
  simp only [e] at this
  exact this

/-- An engine at DESK RESET (R158, R170). -/
def LinkEngine.resynced (l : LinkEngine) : LinkEngine :=
  match l.session with
  | .up i last _ =>
    if l.inFlight.isNone then
      { l.leaveUp (.syncing .reset i last) with inFlight := some ⟨.image, l.failures + 1⟩, lck := .clocking }
    else l.leaveUp (.syncing .reset i last)
  | .off => l
  | .probing _ => l
  | .syncing _ _ _ => l
  | .holdoff _ => l

theorem State.resetSession_eq (s : State) (n : LinkId) : s.resetSession n = s.setLink n s.links[n].resynced := by
  unfold LinkEngine.resynced
  cases hs : s.links[n].session with
  | up i last start =>
    simp only [State.resetSession, hs]
    split
    next => rw [State.leaveUp, State.setLink_beginOrder]; rfl
    next => rfl
  | off | probing d | syncing c i last | holdoff d =>
    simp only [State.resetSession, hs]
    exact (s.setLink_self n).symm

/-- A walk over the engines that changes each by itself. -/
theorem foldl_setLink_self (f : LinkEngine → LinkEngine) (l : List LinkId) (nodup : l.Nodup) (s : State) (n : LinkId) :
    (l.foldl (fun t n => t.setLink n (f t.links[n])) s).links[n] = if n ∈ l then f s.links[n] else s.links[n] := by
  induction l generalizing s with
  | nil => simp
  | cons m l ih =>
    obtain ⟨fresh, nodup⟩ := List.nodup_cons.mp nodup
    rw [List.foldl_cons, ih nodup]
    by_cases e : m = n
    · subst e
      rw [if_neg fresh, State.setLink_link, if_pos (by simp)]
    · have other : (s.setLink m (f s.links[m])).links[n] = s.links[n] := upd_ne _ _ _ _ e
      rw [other]
      simp only [List.mem_cons, Ne.symm e, false_or]

theorem State.resetLamps_links (s : State) : s.resetLamps.links = s.links := by
  simp only [State.resetLamps]

theorem State.resetRecords_links (s : State) : s.resetRecords.links = s.links := by
  simp only [State.resetRecords]

theorem State.resetSessions_link (s : State) (n : LinkId) :
    ((List.finRange 8).foldl State.resetSession s).links[n] = s.links[n].resynced := by
  have walk : (List.finRange 8).foldl State.resetSession s =
      (List.finRange 8).foldl (fun t n => t.setLink n t.links[n].resynced) s := by
    simp only [← State.resetSession_eq]
  rw [walk, foldl_setLink_self _ _ (List.nodup_finRange 8), if_pos (List.mem_finRange n)]

theorem State.resetParts_links (s : State) : (((s.overTable State.resetPos).resetRecords).resetLamps).links = s.links := by
  rw [State.resetLamps_links, State.resetRecords_links]
  exact State.overTable_keeps State.links (effect := State.resetPos) (by simp) s

theorem State.deskReset_link (s : State) (n : LinkId) : s.deskReset.links[n] = s.links[n].resynced := by
  rw [← s.resetParts_links]
  unfold State.deskReset
  generalize ((s.overTable State.resetPos).resetRecords).resetLamps = t
  rw [foldl_keeps State.links State.emptyQueue (by simp)]
  exact t.resetSessions_link n

theorem upd_session {s : State} {n : LinkId} {l : LinkEngine}
    (h : s.links[n].session.isSession = true → l.session.isSession = true ∨ ∀ r ∈ s.held, panelOf r.pos ≠ n)
    {r : HeldRecord} (hr : r ∈ s.held) (session : s.links[panelOf r.pos].session.isSession = true) :
    (s.setLink n l).links[panelOf r.pos].session.isSession = true := by
  by_cases e : n = panelOf r.pos
  · subst e
    rw [State.setLink_link]
    obtain kept | none := h session
    · exact kept
    · exact absurd rfl (none r hr)
  · rw [State.setLink_links, upd_ne _ _ _ _ e]
    exact session

theorem Act.heldPanelLaw {s t : State} (h : Act s t) (law : s.HeldPanelLaw) : t.HeldPanelLaw := by
  have same : t.held.map HeldRecord.pos = s.held.map HeldRecord.pos → t.links = s.links → t.HeldPanelLaw :=
    fun places links => law.of_places places fun r _ h => by rw [links]; exact h
  obtain places | ⟨resync, q, session, rfl⟩ | ⟨resync, lost, q, rfl⟩ | empty := h.places
  · cases h with
    | link n l change => exact law.of_places places fun r hr => upd_session change.session hr
    | enable n l on handed taken off session =>
      exact law.of_places places fun r hr => upd_session (fun h => .inl (session h)) hr
    | disable n l law' handed taken off session =>
      exact law.of_places places fun r hr => upd_session (fun h => .inr (session h)) hr
    | writeLinks m e w working taken =>
      refine law.of_places places fun r _ session => ?_
      rw [State.writeLinks_link]
      exact session
    | deskReset =>
      intro r hr
      rw [State.deskReset_held] at hr
      cases hr
    | clearTable =>
      exact same places (Eq.trans (by simp)
        (State.overTable_keeps State.links (effect := State.clearPos) (by simp) s))
    | leave p unasked =>
      refine same places (Eq.trans (by simp)
        (State.overTable_keeps State.links (effect := State.leavePos p) (fun t q => ?_) s))
      unfold State.leavePos
      split <;> simp
    | lampValue v q owned => exact same places (by simp [State.setLampValue])
    | profile i f ok => exact same places rfl
    | _ => exact same places (by simp)
  · have links : (s.pressKey resync q).links = s.links := by simp
    obtain held | ⟨-, -, x, held, hq, -⟩ := s.pressKey_held_cases resync q
    · exact same (by rw [held]) links
    · intro r hr
      rw [links]
      rw [held] at hr
      obtain hr | hr := List.mem_append.mp hr
      · exact law r hr
      · obtain rfl := List.mem_singleton.mp hr
        subst hq
        exact session
  · intro r hr
    rw [State.releaseKey_held] at hr
    have links : (s.releaseKey resync lost q).links = s.links := by simp
    rw [links]
    exact law r (List.mem_of_mem_filter hr)
  · intro r hr
    rw [empty] at hr
    cases hr

theorem heldPanelLaw_borne : Bears State.HeldPanelLaw where
  acts _ _ h := h.heldPanelLaw
  tick _ h := h
  lapsed _ _ _ h := h
  select _ _ h := h
  hold s _ r hr := by rw [s.holdReset_held] at hr; cases hr
  leave s _ r hr := by rw [s.leaveReset_held] at hr; cases hr
  pending _ _ h := h

/-- Settles O8: a record is made while the session stands, and a session ends with none left on its panel. -/
theorem stepKeepsHeldPanels : Obligations.StepKeepsHeldPanels :=
  fun _ _ law h => heldPanelLaw_borne.step h law

end Sys2Proof.Machine
end

section
/-! PROOF. The law of the link engines. -/

namespace Sys2Proof.Machine

section
variable {s t : State} {n : LinkId}

/-- The engine handed a change, and no more (R166). -/
theorem LinkLaw.handedTo {l : LinkEngine} (law : LinkLaw n l) (h : Option Bool) : LinkLaw n { l with handed := h } where
  clock := law.clock
  off := law.off
  order := law.order
  attempt := law.attempt
  failures := law.failures
  noSession := law.noSession
  keyCount := law.keyCount
  failedCount := law.failedCount
  lostCount := law.lostCount
  edges := law.edges
  live := law.live

theorem LinkLaw.resynced {l : LinkEngine} (law : LinkLaw n l) : LinkLaw n l.resynced := by
  cases hs : l.session with
  | off | probing d | syncing c i last | holdoff d =>
    have same : l.resynced = l := by simp only [LinkEngine.resynced, hs]
    exact same.symm ▸ law
  | up i last start =>
    have stale : ∀ e ∈ l.edges.map (fun e => { e with live := false }), panelOf e.pos = n ∧ e.live = false := by
      intro e he
      obtain ⟨x, hx, rfl⟩ := List.mem_map.mp he
      exact ⟨law.edges x hx, rfl⟩
    have notOff : l.lck ≠ .low := fun e => by
      have := law.off.mp e
      rw [hs] at this
      cases this
    have order := law.order
    rw [hs] at order
    cases hx : l.inFlight with
    | none =>
      have eq : l.resynced = { l.leaveUp (.syncing .reset i last) with
          inFlight := some ⟨.image, l.failures + 1⟩, lck := .clocking } := by
        simp [LinkEngine.resynced, hs, hx]
      rw [eq]
      exact {
        clock := by simp
        off := ⟨fun e => (by cases e), fun e => (by cases e)⟩
        order := rfl
        attempt := fun x hx => by cases hx; rfl
        failures := law.failures
        noSession := fun e => by cases e
        keyCount := fun x hx => law.keyCount x (by rw [hs]; exact hx)
        failedCount := law.failedCount
        lostCount := law.lostCount
        edges := fun e he => (stale e he).1
        live := fun e he live => by rw [(stale e he).2] at live; cases live }
    | some x =>
      rw [hx] at order
      have eq : l.resynced = l.leaveUp (.syncing .reset i last) := by
        simp [LinkEngine.resynced, hs, hx]
      rw [eq]
      exact {
        clock := law.clock
        off := ⟨fun e => absurd e notOff, fun e => (by cases e)⟩
        order := by
          show orderAllowed (.syncing .reset i last) l.inFlight = true
          rw [hx]
          simp only [orderAllowed, Bool.or_eq_true, beq_iff_eq] at order
          rcases order with e | e <;> simp [orderAllowed, e]
        attempt := law.attempt
        failures := law.failures
        noSession := fun e => by cases e
        keyCount := fun x hx => law.keyCount x (by rw [hs]; exact hx)
        failedCount := law.failedCount
        lostCount := law.lostCount
        edges := fun e he => (stale e he).1
        live := fun e he live => by rw [(stale e he).2] at live; cases live }

/-- The events that reach a link engine. -/
theorem Act.links (h : Act s t) : t.links = s.links ∨
    (∃ (k : LinkId) (l : LinkEngine), (LinkLaw k s.links[k] → LinkLaw k l) ∧ t.links = upd s.links k l) ∨
    (∀ k : LinkId, ∃ x, t.links[k] = { s.links[k] with handed := x }) ∨
    ∀ k : LinkId, t.links[k] = s.links[k].resynced := by
  cases h with
  | link k l change => exact .inr (.inl ⟨k, l, change.law, rfl⟩)
  | enable k l law handed taken on session => exact .inr (.inl ⟨k, l, law, rfl⟩)
  | disable k l law handed taken off session => exact .inr (.inl ⟨k, l, law, rfl⟩)
  | writeLinks m e w working taken => exact .inr (.inr (.inl fun k => ⟨_, s.writeLinks_link m e w k⟩))
  | deskReset => exact .inr (.inr (.inr s.deskReset_link))
  | clearTable =>
    exact .inl (Eq.trans (by simp) (State.overTable_keeps State.links (effect := State.clearPos) (by simp) s))
  | leave p unasked =>
    refine .inl (Eq.trans (by simp) (State.overTable_keeps State.links (effect := State.leavePos p) (fun t q => ?_) s))
    unfold State.leavePos
    split <;> simp
  | lampValue v q owned => exact .inl (by simp [State.setLampValue])
  | profile i f ok => exact .inl rfl
  | _ => exact .inl (by simp)

theorem Act.linkLaw (h : Act s t) (law : ∀ k : LinkId, LinkLaw k s.links[k]) (k : LinkId) : LinkLaw k t.links[k] := by
  obtain same | ⟨m, l, kept, one⟩ | handed | reset := h.links
  · rw [same]
    exact law k
  · rw [one]
    by_cases e : m = k
    · subst e
      rw [upd_self]
      exact kept (law m)
    · rw [upd_ne _ _ _ _ e]
      exact law k
  · obtain ⟨x, hx⟩ := handed k
    rw [hx]
    exact (law k).handedTo x
  · rw [reset k]
    exact (law k).resynced

theorem State.holdReset_link (s : State) (n : LinkId) : s.holdReset.links[n] = LinkEngine.inReset := by
  simp [State.holdReset]

theorem LinkLaw.inReset : LinkLaw n LinkEngine.inReset where
  clock := ⟨fun e => (by cases e), fun e => (by cases e)⟩
  off := ⟨fun _ => rfl, fun _ => rfl⟩
  order := rfl
  attempt _ h := by cases h
  failures := Nat.zero_le _
  noSession _ := rfl
  keyCount _ h := by cases h
  failedCount := Nat.zero_le _
  lostCount := Nat.zero_le _
  edges _ h := by cases h
  live _ h := by cases h

theorem LinkLaw.initial : LinkLaw n LinkEngine.initial where
  clock := ⟨fun _ => rfl, fun _ => rfl⟩
  off := ⟨fun e => (by cases e), fun e => (by cases e)⟩
  order := rfl
  attempt x h := by cases h; rfl
  failures := Nat.zero_le _
  noSession _ := rfl
  keyCount _ h := by cases h
  failedCount := Nat.zero_le _
  lostCount := Nat.zero_le _
  edges _ h := by cases h
  live _ h := by cases h

end

theorem linkLaw_borne : Bears fun s => ∀ n : LinkId, LinkLaw n s.links[n] where
  acts _ _ h := h.linkLaw
  tick _ h := h
  lapsed _ _ _ h := h
  select _ _ h := h
  hold s _ n := (s.holdReset_link n).symm ▸ .inReset
  leave s _ n := by
    rw [State.leaveReset_eq]
    have link : State.reset.links[n] = LinkEngine.initial := by simp [State.reset]
    exact link.symm ▸ LinkLaw.initial
  pending _ _ h := h

/-- Settles O11: the commands change one engine by its own rules, and DESK RESET each that is UP. -/
theorem stepKeepsLinks : Obligations.StepKeepsLinks :=
  fun _ _ law h => linkLaw_borne.step h law

end Sys2Proof.Machine
end

section
/-! PROOF. Desk time, the waiting commands and the hold of power-on reset. -/

namespace Sys2Proof.Machine

/-! ## What no act touches -/

/-- The waiting commands, desk time and the level of the RESET pin are as they were. -/
structure Timeless (s t : State) : Prop where
  pending : t.pending = s.pending
  deskTime : t.deskTime = s.deskTime
  resetLow : t.resetLow = s.resetLow

theorem Timeless.overTable {effect : State → KeyPos → State} (h : ∀ t q, Timeless t (effect t q)) (s : State) :
    Timeless s (s.overTable effect) where
  pending := State.overTable_keeps State.pending (fun t q => (h t q).pending) s
  deskTime := State.overTable_keeps State.deskTime (fun t q => (h t q).deskTime) s
  resetLow := State.overTable_keeps State.resetLow (fun t q => (h t q).resetLow) s

theorem Timeless.trans {s t u : State} (h : Timeless s t) (k : Timeless t u) : Timeless s u :=
  ⟨k.pending.trans h.pending, k.deskTime.trans h.deskTime, k.resetLow.trans h.resetLow⟩

theorem State.resetRecords_timeless (s : State) : Timeless s s.resetRecords := by
  constructor <;> simp only [State.resetRecords]

theorem State.resetLamps_timeless (s : State) : Timeless s s.resetLamps := by
  constructor <;> simp only [State.resetLamps]

theorem State.deskReset_timeless (s : State) : Timeless s s.deskReset := by
  have parts : Timeless (((s.overTable State.resetPos).resetRecords).resetLamps) s.deskReset := by
    constructor
    · exact State.deskReset_keeps s State.pending (by simp) (by simp)
    · exact State.deskReset_keeps s State.deskTime (by simp) (by simp)
    · exact State.deskReset_keeps s State.resetLow (by simp) (by simp)
  have walk : Timeless s (s.overTable State.resetPos) := .overTable (fun t q => by constructor <;> simp) s
  exact ((walk.trans (State.resetRecords_timeless _)).trans (State.resetLamps_timeless _)).trans parts

theorem Act.timeless {s t : State} (h : Act s t) : Timeless s t := by
  cases h with
  | clearTable =>
    refine Timeless.trans (.overTable (effect := State.clearPos) (fun t q => ?_) s) ?_
    all_goals constructor <;> simp
  | leave p unasked =>
    refine Timeless.trans (.overTable (effect := State.leavePos p) (fun t q => ?_) s) ?_
    · unfold State.leavePos
      split <;> constructor <;> simp
    · constructor <;> simp
  | deskReset => exact s.deskReset_timeless
  | lampValue v q owned => constructor <;> simp [State.setLampValue]
  | profile i f ok => exact ⟨rfl, rfl, rfl⟩
  | _ => constructor <;> simp

theorem Acts.timeless {s t : State} (h : Acts s t) : Timeless s t := by
  induction h with
  | refl => exact ⟨rfl, rfl, rfl⟩
  | tail _ act ih => exact ih.trans act.timeless

theorem exec_timeless {c : Instr} {s t : State} (power : c ≠ .powerOn) (tick : c ≠ .deskTick)
    (h : exec c s = .next t) : Timeless s t := by
  by_cases lapse : ∃ p, c = .hostLapse p
  · obtain ⟨p, rfl⟩ := lapse
    obtain rfl | ⟨-, acts⟩ := exec_hostLapse_acts h
    · exact ⟨rfl, rfl, rfl⟩
    · exact Timeless.trans (t := s.lapsed p) ⟨rfl, rfl, rfl⟩ acts.timeless
  by_cases fall : ∃ p, c = .chipSelectFall p ∧ s.resetLow = true
  · obtain ⟨p, rfl, low⟩ := fall
    have h : execChipSelectFall p s = .next t := h
    rw [← Host.Outcome.next.inj h, low]
    split
    · exact ⟨rfl, rfl, rfl⟩
    · rw [if_pos rfl]
      exact ⟨rfl, rfl, rfl⟩
  refine Acts.timeless (exec_acts c s power tick (fun p e => lapse ⟨p, e⟩) (fun p e => ?_) t h)
  exact Bool.eq_false_iff.mpr fun low => fall ⟨p, e, low⟩

theorem exec_total (c : Instr) (s : State) : ∃ t, exec c s = .next t := by
  cases c <;> exact ⟨_, rfl⟩

theorem exec_pending {c : Instr} {s t : State} (h : exec c s = .next t) : t.pending = s.pending := by
  by_cases power : c = .powerOn
  · subst power
    have h : execPowerOn s = .next t := h
    rw [← Host.Outcome.next.inj h]
    split
    · rw [State.leaveReset_eq]
    · rfl
  by_cases tick : c = .deskTick
  · subst tick
    have h : execDeskTick s = .next t := h
    rw [← Host.Outcome.next.inj h]
    split <;> rfl
  exact (exec_timeless power tick h).pending

/-- Settles O2: no command is refused, and none reaches the queue of commands. -/
theorem everyCommandCompletes : Obligations.EveryCommandCompletes := by
  intro c s
  obtain ⟨t, h⟩ := exec_total c s
  exact ⟨t, h, exec_pending h⟩

/-- Settles O14: DESK_TICK alone reaches desk time, and in the hold of power-on reset it has no effect. -/
theorem deskTimeMovesByTick : Obligations.DeskTimeMovesByTick := by
  refine ⟨fun s low => ?_, fun s low => ?_, fun s t c tick power h => (exec_timeless power tick h).deskTime⟩
  · refine ⟨{ s with deskTime := s.deskTime + 1 }, ?_, ?_, fun x hx => ?_⟩
    · show Host.Outcome.next _ = _
      rw [low]
      rfl
    · simp [BitVec.toNat_add]
    · cases x with
      | deskTime => simp at hx
      | _ => rfl
  · show Host.Outcome.next _ = _
    rw [low]
    rfl

/-! ## The hold of power-on reset -/

/-- Nothing is under way: no request, no transaction, no timer, no ask, no exchange, no held record. -/
structure State.Still (s : State) : Prop where
  resetLow : s.resetLow = true
  port : ∀ p : Port, s.ports[p] = { PortUnit.initial with csLow := s.ports[p].csLow }
  ask : ∀ i : AskId, s.asks[i] = none
  link : ∀ n : LinkId, s.links[n] = LinkEngine.inReset
  held : s.held = []

section
variable {s : State}

theorem State.still_of_hold (low : s.resetLow = true) (hold : s = s.holdReset) : s.Still where
  resetLow := low
  port p := by
    have := s.holdReset_ports p
    rwa [← hold] at this
  ask i := by
    rw [hold]
    simp [State.holdReset, State.reset]
  link n := by
    have := s.holdReset_link n
    rwa [← hold] at this
  held := by
    rw [hold]
    exact s.holdReset_held

theorem State.Still.txn (h : s.Still) (p : Port) : s.ports[p].txn = none := by
  rw [h.port p]
  rfl

theorem State.Still.requestOf (h : s.Still) (p : Port) : s.requestOf p = none := by
  have : s.ports[p].state = .idle := by
    rw [h.port p]
    rfl
  simp only [State.requestOf, this]

theorem State.Still.lapseDue (h : s.Still) (p : Port) : s.lapseDue p = false := by
  have : s.ports[p].lapseStart = none := by
    rw [h.port p]
    rfl
  simp only [State.lapseDue, this]

theorem State.Still.heldAt (h : s.Still) (q : KeyPos) : s.heldAt q = none := by
  simp [State.heldAt, h.held]

theorem State.Still.endExchange (h : s.Still) (n : LinkId) (r : Reply) : s.endExchange n r = s := by
  simp only [State.endExchange, h.link n, LinkEngine.inReset]

theorem State.Still.takeEdge (h : s.Still) (press : Bool) (q : KeyPos) (act : State → State) :
    s.takeEdge press q act = s := by
  simp only [State.takeEdge, h.link (panelOf q), LinkEngine.inReset, LinkEngine.initial]

theorem State.Still.risen (h : s.Still) (p : Port) :
    s.ports[p].risen s.deskTime = { s.ports[p] with csLow := false } := by
  rw [h.port p]
  rfl

/-- While nothing is under way a command reaches at most the level of a chip select pin. -/
theorem exec_still (h : s.Still) {c : Instr} (power : c ≠ .powerOn) :
    exec c s = .next s ∨ ∃ (p : Port) (b : Bool), exec c s = .next (s.setPort p { s.ports[p] with csLow := b }) := by
  cases c with
  | powerOn => exact absurd rfl power
  | chipSelectRise p =>
    refine .inr ⟨p, false, ?_⟩
    show Host.Outcome.next _ = _
    rw [h.risen p]
  | chipSelectFall p =>
    by_cases low : s.ports[p].csLow = true
    · refine .inl ?_
      show Host.Outcome.next _ = _
      rw [if_pos low]
    · refine .inr ⟨p, true, ?_⟩
      show Host.Outcome.next _ = _
      rw [if_neg low, if_pos h.resetLow]
  | deskTick =>
    refine .inl ?_
    show Host.Outcome.next _ = _
    rw [if_pos h.resetLow]
  | hostLapse p =>
    refine .inl ?_
    show Host.Outcome.next _ = _
    rw [h.lapseDue p]
    rfl
  | ident n _ _ | imageReply n _ | edge n _ _ _ | nothing n | lost n | accept n | again n =>
    exact .inl (congrArg Host.Outcome.next (h.endExchange n _))
  | exchangeFailed n why =>
    exact .inl (congrArg Host.Outcome.next (by simp only [State.failExchange, h.link n, LinkEngine.inReset]))
  | pressEdge q => exact .inl (congrArg Host.Outcome.next (h.takeEdge _ q _))
  | releaseEdge q => exact .inl (congrArg Host.Outcome.next (h.takeEdge _ q _))
  | repeatDue q =>
    refine .inl ?_
    show execRepeatDue q s = _
    simp only [execRepeatDue, h.heldAt q]
  | askDeadline i =>
    refine .inl ?_
    show execAskDeadline i s = _
    simp only [execAskDeadline, h.ask i]
  | probeTimer n | holdoffTimer n | poll n | linkEnable n | linkDisable n | lampAcceptance n =>
    refine .inl ?_
    simp only [exec, execProbeTimer, execHoldoffTimer, execPoll, execLinkEnable, execLinkDisable, execLampAcceptance,
      h.link n, LinkEngine.inReset, LinkEngine.initial, reduceCtorEq, if_false]
  | status p _ | fetch p | answerConsumed p | notices p | noticeRemoval p | cancel p | submit p _ =>
    refine .inl ?_
    simp only [exec, execStatus, execFetch, execAnswerConsumed, execNotices, execNoticeRemoval, execCancel, execSubmit,
      h.txn p]
  | _ =>
    refine .inl ?_
    simp only [exec, execClaim, execRelease, execPin, execUnpin, execFix, execLamp, execClearTable, execLeave,
      execReadBinding, execYieldAsk, execYieldReply, execOpenGroup, execCloseGroup, execClearSelection, execReadGroup,
      execSetProfile, execReadProfile, execSetPort, execReadHeld, execReadPanel, execSetLinks, execReadDesk,
      execDeskReset, h.requestOf]

theorem eq_of_entries {α : Type} {n : Nat} {v w : Vector α n} (h : ∀ i : Fin n, v[i] = w[i]) : v = w :=
  Vector.ext fun i hi => h ⟨i, hi⟩

/-- A chip select pin moves in the hold, and the hold stays. -/
theorem State.hold_setPort (hold : s = s.holdReset) (p : Port) (b : Bool) :
    s.setPort p { s.ports[p] with csLow := b } = (s.setPort p { s.ports[p] with csLow := b }).holdReset := by
  have ports : (s.setPort p { s.ports[p] with csLow := b }).ports =
      (s.setPort p { s.ports[p] with csLow := b }).holdReset.ports := by
    refine eq_of_entries fun k => ?_
    rw [State.holdReset_ports, State.setPort_ports]
    have unit := s.holdReset_ports k
    rw [← hold] at unit
    by_cases e : p = k
    · subst e
      rw [upd_self, unit]
    · rw [upd_ne _ _ _ _ e]
      exact unit
  calc s.setPort p { s.ports[p] with csLow := b }
      = { s.holdReset with ports := (s.setPort p { s.ports[p] with csLow := b }).ports } := by
        rw [← hold]
        rfl
    _ = _ := by
        rw [ports]
        rfl

theorem exec_holdLaw (low : s.resetLow = true) (hold : s.HoldLaw) {c : Instr} (power : c ≠ .powerOn) :
    ∃ t, exec c s = .next t ∧ t.resetLow = true ∧ t.HoldLaw := by
  obtain same | ⟨p, b, moved⟩ := exec_still (State.still_of_hold low (hold low)) power
  · exact ⟨s, same, low, hold⟩
  · exact ⟨_, moved, low, fun _ => State.hold_setPort (hold low) p b⟩

end

/-- The values of every record at power-on but those of the ports and the links, as O3 lists them. -/
theorem State.reset_values : State.reset.held = [] ∧ (∀ g : GroupId, State.reset.groups[g] = none) ∧
    (∀ i : AskId, State.reset.asks[i] = none) ∧
    (∀ p : Port, State.reset.presence[p] = .present ∧ State.reset.queues[p] = [] ∧ State.reset.noteLow[p] = false) ∧
    (∀ q : KeyPos, State.reset.table[q] = Binding.unbound 0 ∧ State.reset.derived[q] = .off ∧
      State.reset.sent[q] = none) ∧ (∀ b : Fin 128, State.reset.dirty[b] = true) := by
  simp [State.reset]

/-- Settles O3: POWER_ON writes whole states, and nothing is under way in the hold. -/
theorem powerOnValues : Obligations.PowerOnValues := by
  obtain ⟨held, group, ask, host, key, dirty⟩ := State.reset_values
  refine ⟨fun s low => ?_, fun s low => ?_, fun s c low hold power => exec_holdLaw low hold power⟩
  · refine ⟨s.holdReset, ?_, rfl, ?_, fun n i => ?_, fun p => ?_⟩
    · show Host.Outcome.next _ = _
      rw [low]
      rfl
    · exact ⟨key, dirty, held, group, ask, host, s.holdReset_ports, s.holdReset_link, rfl, rfl, rfl, rfl, rfl, rfl⟩
    · rw [s.holdReset_link n]
      rfl
    · show (_ && !s.holdReset.resetLow) = false
      rw [show s.holdReset.resetLow = true from rfl, Bool.not_true, Bool.and_false]
  · refine ⟨s.leaveReset, ?_, ?_, ?_⟩
    · show Host.Outcome.next _ = _
      rw [if_pos low]
    · rw [State.leaveReset_eq]
      rfl
    · rw [State.leaveReset_eq]
      refine ⟨key, dirty, held, group, ask, host, s.holdReset_ports, fun n => ?_, rfl, rfl, rfl, rfl, rfl, rfl⟩
      simp [State.reset, LinkEngine.initial]

end Sys2Proof.Machine
end

section
/-! PROOF. The law of the ports: what an answer leaves of a port, and what the queues and the presence may do. -/

namespace Sys2Proof.Machine

/-! ## Ports that are at most answered -/

/-- Each port is as it was, or was WORKING and is answered. -/
def Answered (s t : State) : Prop :=
  ∀ p : Port, t.ports[p] = s.ports[p] ∨
    (∃ r, WorkingOn s p r) ∧ ∃ a, t.ports[p] = { s.ports[p] with state := .answered a }

section
variable {s t u : State}

theorem Answered.refl (s : State) : Answered s s :=
  fun _ => .inl rfl

theorem Answered.of_ports (h : t.ports = s.ports) : Answered s t :=
  fun p => .inl (by rw [h])

theorem Answered.trans (h : Answered s t) (k : Answered t u) : Answered s u := by
  intro p
  obtain same | ⟨⟨r, working⟩, a, answered⟩ := k p
  · rw [same]
    exact h p
  · obtain before | ⟨-, b, before⟩ := h p
    · rw [answered, before]
      exact .inr ⟨⟨r, by rwa [WorkingOn, before] at working⟩, a, rfl⟩
    · rw [WorkingOn, before] at working
      cases working

theorem Answered.next (h : Answered s t) (k : u.ports = t.ports) : Answered s u :=
  h.trans (.of_ports k)

theorem State.answer_answered (s : State) (p : Port) (st : StatusCode) (d : List Byte) : Answered s (s.answer p st d) := by
  intro k
  by_cases e : p = k
  · subst e
    by_cases working : ∃ r, WorkingOn s p r
    · obtain ⟨r, hr⟩ := working
      rw [State.answer_working hr, State.setPort_ports, upd_self]
      exact .inr ⟨⟨r, hr⟩, _, rfl⟩
    · rw [State.answer_not_working fun r hr => working ⟨r, hr⟩]
      exact .inl rfl
  · exact .inl (State.answer_other s e st d)

theorem Answered.answer (h : Answered s t) (p : Port) (st : StatusCode) (d : List Byte) : Answered s (t.answer p st d) :=
  h.trans (t.answer_answered p st d)

theorem Answered.foldl {α : Type} {g : State → α → State} (hg : ∀ t x, Answered t (g t x)) (l : List α) (s : State) :
    Answered s (l.foldl g s) := by
  induction l generalizing s with
  | nil => exact .refl s
  | cons x xs ih => exact (hg s x).trans (ih _)

end

section
variable (s : State)

theorem State.endAsk_answered (i : AskId) (a : Ask) (st : StatusCode) : Answered s (s.endAsk i a st) :=
  (Answered.of_ports (t := s.removeAsk (some i)) (by simp)).answer a.asker st []

theorem State.endAskOn_answered (q : KeyPos) (st : StatusCode) : Answered s (s.endAskOn q st) := by
  unfold State.endAskOn
  split
  · exact .refl s
  · exact s.endAsk_answered _ _ st

theorem State.resetAskOn_answered (q : KeyPos) (b : Binding) : Answered s (s.resetAskOn q b) := by
  unfold State.resetAskOn
  split
  next => exact .refl s
  next i a _ => exact (s.endAsk_answered i a .reset).next (by simp [State.closeAsk])

theorem State.grant_answered (e : Option AskId) (p h : Port) (a : AttrSet) (q : KeyPos) :
    Answered s (s.grant e p h a q) :=
  ((Answered.refl s).answer p .granted [s.table[q].gen + 1]).next (s.grant_ports e p h a q)

theorem State.grantReleased_answered (announce : Bool) (b : Binding) (q : KeyPos) :
    Answered s (s.grantReleased announce b q) := by
  unfold State.grantReleased
  split
  next => exact .refl s
  next i a _ =>
    extract_lets s1 s2
    have written : Answered s (s2.removeAsk (some i)) :=
      .of_ports (by simp only [s2, s1]; cases announce <;> simp)
    exact (written.answer a.asker .granted [s2.table[q].gen]).next (by simp [State.answerGranted])

theorem State.releasePos_answered (announce : Bool) (q : KeyPos) : Answered s (s.releasePos announce q) := by
  have unbound : Answered s (((s.withdraw announce q).leaveGroup announce q).unbind q) := .of_ports (by simp)
  exact (unbound.trans (State.grantReleased_answered _ announce s.table[q] q)).next (by simp [State.releasePos])

theorem State.leavePos_answered (p : Port) (q : KeyPos) : Answered s (State.leavePos p s q) := by
  unfold State.leavePos
  split
  · exact s.releasePos_answered false q
  · exact .refl s

theorem State.clearPos_answered (q : KeyPos) : Answered s (s.clearPos q) := by
  unfold State.clearPos
  split
  · exact .refl s
  · have unbound : Answered s ((s.withdraw true q).unbind q) := .of_ports (by simp)
    exact (unbound.trans (State.resetAskOn_answered _ q s.table[q])).next (by simp)

theorem State.resetPos_answered (q : KeyPos) : Answered s (s.resetPos q) := by
  unfold State.resetPos
  extract_lets b
  split
  next => exact .refl s
  next =>
    split
    · refine .of_ports ?_
      split <;> rfl
    · have unbound : Answered s (s.unbind q) := .of_ports (by simp)
      exact unbound.trans (State.resetAskOn_answered _ q b)

end

/-! ## The law of the ports -/

section
variable {s t : State} {p : Port}

/-- A port that is at most answered, its queue at most longer, its host as it was or PRESENT. -/
theorem PortLaw.answered {u v : PortUnit} {q l : List Notice} {x y : Presence} (h : PortLaw p u q x)
    (port : v = u ∨ (∃ r, u.state = .working r) ∧ ∃ a, v = { u with state := .answered a }) (grown : q.length ≤ l.length)
    (presence : y = x ∨ y = .present) : PortLaw p v l y := by
  have lapsed : y = .lapsed → u.csLow = false ∧ u.lapseTime ≠ 0 := fun e => by
    obtain rfl | rfl := presence
    · exact h.lapsed e
    · cases e
  obtain rfl | ⟨⟨r, working⟩, a, rfl⟩ := port
  · refine ⟨fun t ht => ?_, h.lapseTime, h.timer, lapsed, h.supervisor⟩
    have law := h.txn t ht
    exact ⟨law.low, law.fresh, law.count, ⟨law.left.1, law.left.2.trans grown⟩, law.fetching, law.noticing⟩
  · refine ⟨fun t ht => ?_, h.lapseTime, h.timer, lapsed, fun r e => by cases e⟩
    have law := h.txn t ht
    refine ⟨law.low, law.fresh, law.count, ⟨law.left.1, law.left.2.trans grown⟩, fun rest e => ?_, law.noticing⟩
    obtain ⟨b, idle, -⟩ := law.fetching rest e
    rw [working] at idle
    cases idle

theorem Reading.emptied_eq_of_ne_notices {r e : Reading} (h : r.emptied = e) (notices : ∀ c k, e ≠ .notices c k) :
    r = e := by
  cases r with
  | notices c k => exact absurd h.symm (notices _ _)
  | _ => exact h

/-- A port whose queue is emptied (R118, R123). -/
theorem PortLaw.emptied {u : PortUnit} {q : List Notice} {x : Presence} (h : PortLaw p u q x) : PortLaw p u.emptied [] x := by
  refine ⟨fun t ht => ?_, h.lapseTime, h.timer, h.lapsed, h.supervisor⟩
  obtain ⟨y, hy, rfl⟩ := Option.mem_map.mp ht
  have law := h.txn y hy
  refine ⟨law.low, fun e => law.fresh (Reading.emptied_eq_of_ne_notices e nofun), law.count,
    ⟨Nat.zero_le _, Nat.zero_le _⟩, fun rest e => law.fetching rest (Reading.emptied_eq_of_ne_notices e nofun),
    fun c k e => ?_⟩
  have e : y.reading.emptied = .notices c k := e
  cases hr : y.reading with
  | notices c' k' =>
    rw [hr] at e
    cases e
    exact Nat.zero_le _
  | unread | status | cancel | fetch rest live =>
    rw [hr] at e
    cases e

/-- A port at DESK RESET, its host PRESENT (R57, R61). -/
theorem PortLaw.deskReset {u : PortUnit} {q l : List Notice} {x : Presence} (h : PortLaw p u q x) (now : Time)
    (grown : q.length ≤ l.length) : PortLaw p (u.deskReset now) l .present := by
  refine ⟨fun t ht => ?_, h.lapseTime, fun e => ?_, fun e => (by cases e), h.supervisor⟩
  · have law := h.txn t ht
    exact ⟨law.low, law.fresh, law.count, ⟨law.left.1, law.left.2.trans grown⟩, law.fetching, law.noticing⟩
  · simp only [PortUnit.deskReset] at e ⊢
    split at e
    next => exact h.timer e
    next =>
      split at e
      next => cases e
      next high => exact Bool.eq_false_iff.mpr high

/-- The parts that the law of the ports reads. -/
def State.PortsLaw (s : State) : Prop :=
  ∀ p : Port, PortLaw p s.ports[p] s.queues[p] s.presence[p]

theorem State.PortsLaw.answered (law : s.PortsLaw) (ports : Answered s t) (queues : Queued s t)
    (presence : t.presence = s.presence) : t.PortsLaw :=
  fun p => (law p).answered (ports p) (queues.grown p).length_le (.inl (by rw [presence]))

theorem State.PortsLaw.of_same (law : s.PortsLaw) (ports : t.ports = s.ports) (queues : t.queues = s.queues)
    (presence : t.presence = s.presence) : t.PortsLaw := by
  intro p
  rw [ports, queues, presence]
  exact law p

/-- One port is replaced with its queue and presence. -/
theorem State.PortsLaw.one (law : s.PortsLaw) (p : Port) {u : PortUnit} {q : List Notice} {x : Presence}
    (ports : t.ports = upd s.ports p u) (queues : t.queues = upd s.queues p q) (presence : t.presence = upd s.presence p x)
    (h : PortLaw p u q x) : t.PortsLaw := by
  intro k
  rw [ports, queues, presence]
  by_cases e : p = k
  · subst e
    rw [upd_self, upd_self, upd_self]
    exact h
  · rw [upd_ne _ _ _ _ e, upd_ne _ _ _ _ e, upd_ne _ _ _ _ e]
    exact law k

theorem upd_same {α : Type} {n : Nat} (v : Vector α n) (i : Fin n) : upd v i v[i] = v := by
  refine eq_of_entries fun k => ?_
  by_cases e : i = k
  · subst e
    rw [upd_self]
  · rw [upd_ne _ _ _ _ e]

theorem State.newTransaction_law (s : State) (p : Port) (queue : QueueLaw s.queues[p]) {u : PortUnit}
    (low : u.csLow = true) : TransactionLaw u s.queues[p] (s.newTransaction p) where
  low := low
  fresh _ := rfl
  count := queue.length
  left := ⟨le_rfl, le_rfl⟩
  fetching rest e := by cases e
  noticing c k e := by cases e

/-- A port at DESK RESET: its part of the reset, and last its queue emptied. -/
theorem State.deskReset_port (s : State) (p : Port) : s.deskReset.ports[p] =
    ((s.overTable State.resetPos).ports[p].deskReset s.deskTime).emptied := by
  have walk : (s.overTable State.resetPos).deskTime = s.deskTime :=
    State.overTable_keeps State.deskTime (effect := State.resetPos) (by simp) s
  have records : ∀ t : State, t.resetRecords.resetLamps.ports[p] = t.ports[p].deskReset t.deskTime := fun t => by
    rw [State.resetLamps_ports]
    simp only [State.resetRecords]
    exact tabulate_getElem 4 _ p.1 p.2
  rw [← walk, ← records]
  unfold State.deskReset
  generalize ((s.overTable State.resetPos).resetRecords).resetLamps = t
  have sessions : ((List.finRange 8).foldl State.resetSession t).ports = t.ports :=
    foldl_keeps State.ports State.resetSession (by simp) _ t
  obtain ⟨-, -, port⟩ := emptyQueues _ (List.nodup_finRange 4) ((List.finRange 8).foldl State.resetSession t) p
  rw [port, if_pos (List.mem_finRange p), sessions]

theorem State.resetRecords_presence (s : State) (p : Port) : s.resetRecords.presence[p] = .present := by
  simp only [State.resetRecords]
  exact Vector.getElem_replicate _

theorem State.resetLamps_presence (s : State) : s.resetLamps.presence = s.presence := by
  simp only [State.resetLamps]

theorem State.deskReset_presence (s : State) (p : Port) : s.deskReset.presence[p] = .present := by
  rw [State.deskReset_keeps s State.presence (by simp) (by simp), State.resetLamps_presence,
    State.resetRecords_presence]

theorem Act.portsLaw (h : Act s t) (queue : ∀ p : Port, QueueLaw s.queues[p]) (law : s.PortsLaw) : t.PortsLaw := by
  have same : t.ports = s.ports → t.queues = s.queues → t.presence = s.presence → t.PortsLaw := law.of_same
  cases h with
  | port p u mode state kept =>
    exact law.one p (q := s.queues[p]) (x := s.presence[p]) rfl (upd_same _ _).symm (upd_same _ _).symm (kept _ (law p))
  | fall p =>
    refine law.one p (q := s.queues[p]) (x := .present) rfl (upd_same _ _).symm rfl ?_
    refine ⟨fun x hx => ?_, (law p).lapseTime, fun e => (by cases e), fun e => (by cases e), (law p).supervisor⟩
    obtain rfl := Option.some.inj hx
    exact s.newTransaction_law p (queue p) rfl
  | removal p x c k left n q out txn reading counted queue =>
    refine law.one p (u := { s.ports[p] with txn := some { x with left := left, reading := .notices true 0, out := out } })
      (q := q) (x := s.presence[p]) (by simp [State.driveNote]) (by simp [State.driveNote])
      (Eq.trans (by simp [State.driveNote]) (upd_same _ _).symm) ?_
    refine ⟨fun y hy => ?_, (law p).lapseTime, (law p).timer, (law p).lapsed, (law p).supervisor⟩
    obtain rfl := Option.some.inj hy
    have before := (law p).txn x txn
    obtain ⟨within, shown⟩ := before.left
    rw [queue, List.length_cons] at shown
    exact ⟨before.low, fun e => (by cases e), before.count, ⟨by show left ≤ x.count; omega, by show left ≤ q.length; omega⟩,
      fun rest e => (by cases e), fun c k e => by cases e; omega⟩
  | answer p st d unasked taken =>
    exact law.answered (s.answer_answered p st d) ((Queued.refl s).answer p st d) (by simp)
  | endAsk i a st ask => exact law.answered (s.endAsk_answered i a st) (s.endAsk_queued i a st) (by simp)
  | offer p r kind => exact law.answered (.of_ports (by simp)) (s.offer_queued p kind) (by simp)
  | hold h q st owned fixed =>
    exact law.answered ((Answered.of_ports (t := s.setHold h q) (by simp)).trans (State.endAskOn_answered _ q st))
      ((Queued.of_ports (t := s.setHold h q) (by simp) (by simp) (by simp)).trans (State.endAskOn_queued _ q st)) (by simp)
  | replace p a q unasked own loose room =>
    exact law.answered (.of_ports (by simp)) (s.replacePos_queued a q) (by simp)
  | release announce q owned =>
    exact law.answered (s.releasePos_answered announce q) (s.releasePos_queued announce q) (by simp)
  | grantEntry i a ask =>
    exact law.answered (s.grant_answered _ _ _ _ _) (s.grant_queued _ _ _ _ _) (by simp)
  | grantNow p h a q w raw working unasked free owned other room =>
    exact law.answered (s.grant_answered _ _ _ _ _) (s.grant_queued _ _ _ _ _) (by simp)
  | clearTable =>
    have walk : Answered s (s.overTable State.clearPos) := .foldl State.clearPos_answered _ s
    exact law.answered (walk.next (by simp)) ((s.overTable_queued State.clearPos_queued).next (by simp) (by simp) (by simp))
      (Eq.trans (by simp) (State.overTable_keeps State.presence (effect := State.clearPos) (by simp) s))
  | leave p unasked =>
    have walk : Answered s (s.overTable (State.leavePos p)) := .foldl (State.leavePos_answered · p) _ s
    have queued : Queued s (s.overTable (State.leavePos p)) :=
      s.overTable_queued (effect := State.leavePos p) fun t q => t.leavePos_queued p q
    refine law.answered (walk.next (by simp)) (queued.next (by simp) (by simp) (by simp))
      (Eq.trans (by simp) (State.overTable_keeps State.presence (effect := State.leavePos p) (fun t q => ?_) s))
    unfold State.leavePos
    split <;> simp
  | present p =>
    exact law.one p (u := s.ports[p]) (q := s.queues[p]) (x := .present) (upd_same _ _).symm (upd_same _ _).symm rfl
      ((law p).answered (.inl rfl) le_rfl (.inr rfl))
  | emptyQueue p =>
    exact law.one p (u := s.ports[p].emptied) (q := []) (x := s.presence[p]) (by simp [State.emptyQueue])
      (by simp [State.emptyQueue]) (Eq.trans (by simp) (upd_same _ _).symm) (law p).emptied
  | writePort p m lapse ok =>
    obtain ⟨ports, lines, presence⟩ := s.writePort_ports p m lapse
    have unit : ∀ y, (y = .lapsed → s.ports[p].csLow = false ∧ lapse ≠ 0) →
        PortLaw p { s.ports[p] with lineMode := m, lapseTime := lapse } s.queues[p] y := fun y lapsed => by
      refine ⟨fun t ht => ?_, ok, (law p).timer, lapsed, (law p).supervisor⟩
      have before := (law p).txn t ht
      exact ⟨before.low, before.fresh, before.count, before.left, before.fetching, before.noticing⟩
    by_cases zero : lapse = 0
    · rw [if_pos zero] at presence
      exact law.one p ports (Eq.trans (by simp) (upd_same _ _).symm) presence (unit _ fun e => by cases e)
    · rw [if_neg zero] at presence
      exact law.one p ports (Eq.trans (by simp) (upd_same _ _).symm) (presence.trans (upd_same _ _).symm)
        (unit s.presence[p] fun e => ⟨((law p).lapsed e).1, zero⟩)
  | due q r d period found phase =>
    unfold State.dueAt
    split
    next i o _ _ =>
      have told := (Queued.refl s).key o.host s (k := .repeated) (by decide) q (countHalf (raiseCount r.repeatCount))
        r.resync false
      exact law.answered (.of_ports (by simp [State.takeRepeat]))
        (told.next (by simp [State.takeRepeat]) (by simp [State.takeRepeat]) (by simp [State.takeRepeat]))
        (by simp [State.takeRepeat])
    next => exact law.of_same rfl rfl rfl
  | press resync q session => exact law.answered (.of_ports (by simp)) (s.pressKey_queued resync q) (by simp)
  | releaseKey resync lost q =>
    exact law.answered (.of_ports (by simp)) (s.releaseKey_queued resync lost q) (by simp)
  | lampValue v q owned =>
    exact same (by simp [State.setLampValue]) (by simp [State.setLampValue]) (by simp [State.setLampValue])
  | deskReset =>
    intro p
    have walk : Answered s (s.overTable State.resetPos) := .foldl State.resetPos_answered _ s
    rw [s.deskReset_port p, (s.deskReset_queue p).1, s.deskReset_presence p]
    exact (((law p).answered (walk p) le_rfl (.inl rfl)).deskReset _ le_rfl).emptied
  | profile i f ok => exact same rfl rfl rfl
  | _ => exact same (by simp) (by simp) (by simp)

end

end Sys2Proof.Machine
end

section
/-! PROOF. The group table and the yield table while one position changes (R40 to R42, R96, R97, R104). -/

namespace Sys2Proof.Machine

/-! ## Members -/

section
variable {s t : State} {q : KeyPos} {b : Binding} {g : GroupId}

theorem length_filter_finRange {n : Nat} (f : Fin n → Bool) :
    ((List.finRange n).filter f).length = ∑ k : Fin n, if f k = true then 1 else 0 := by
  rw [← List.countP_eq_length_filter, Finset.sum_boole, Fin.univ_def]
  simp [List.countP_eq_length_filter, Finset.filter, Finset.card]

/-- The members of a group as one binding is replaced: one fewer where it was a member, one more where it is one. -/
theorem State.members_upd (h : t.table = upd s.table q b) (g : GroupId) :
    t.members g + (if s.table[q].cls = .select g then 1 else 0) =
      s.members g + (if b.cls = .select g then 1 else 0) := by
  have count : ∀ u : State, u.members g =
      (if u.table[q].cls = .select g then 1 else 0) +
        ∑ k ∈ Finset.univ.erase q, if u.table[k].cls = .select g then 1 else 0 := fun u => by
    rw [State.members, length_filter_finRange, ← Finset.add_sum_erase _ _ (Finset.mem_univ q)]
    simp only [decide_eq_true_eq]
  have others : (∑ k ∈ Finset.univ.erase q, if t.table[k].cls = .select g then 1 else 0) =
      ∑ k ∈ Finset.univ.erase q, if s.table[k].cls = .select g then 1 else 0 := by
    refine Finset.sum_congr rfl fun k hk => ?_
    rw [h, upd_ne _ _ _ _ (Finset.ne_of_mem_erase hk).symm]
  have here : t.table[q].cls = b.cls := by rw [h, upd_self]
  rw [count t, count s, others, here]
  omega

theorem State.members_congr (h : ∀ k : KeyPos, t.table[k].cls = .select g ↔ s.table[k].cls = .select g) :
    t.members g = s.members g := by
  have same : (fun k : KeyPos => decide (t.table[k].cls = .select g)) = fun k => decide (s.table[k].cls = .select g) :=
    funext fun k => decide_eq_decide.mpr (h k)
  rw [State.members, same, State.members]

theorem State.members_eq_zero : s.members g = 0 ↔ ∀ k : KeyPos, s.table[k].cls ≠ .select g := by
  simp [State.members]

theorem KeyClass.eq_select {c : KeyClass} : c.group? = some g ↔ c = .select g :=
  KeyClass.group?_eq_some_iff c g

end

/-! ## Groups -/

/-- Group `g` after position `q`, whose binding named group `old`, has come to name group `new`. -/
def SelGroup.moved (old new : Option GroupId) (q : KeyPos) (g : GroupId) (x : SelGroup) : SelGroup :=
  let y := if old = some g then x.left q else x
  if new = some g then y.joined else y

section
variable {old new : Option GroupId} {q k : KeyPos} {g : GroupId} {x : SelGroup}

theorem SelGroup.moved_owner : (x.moved old new q g).owner = x.owner := by
  unfold SelGroup.moved
  split_ifs <;> rfl

theorem SelGroup.moved_mode : (x.moved old new q g).mode = x.mode := by
  unfold SelGroup.moved
  split_ifs <;> rfl

theorem SelGroup.moved_count : (x.moved old new q g).count =
    x.count - (if old = some g then 1 else 0) + (if new = some g then 1 else 0) := by
  unfold SelGroup.moved
  split_ifs <;> rfl

theorem SelGroup.moved_selected : (x.moved old new q g).selected =
    if old = some g ∧ x.selected = some q then none else x.selected := by
  have same : (x.moved old new q g).selected = (if old = some g then x.left q else x).selected := by
    unfold SelGroup.moved
    split_ifs <;> rfl
  rw [same]
  by_cases h : old = some g
  · simp only [h, true_and]
    rfl
  · simp only [h, false_and, if_false]

theorem SelGroup.selected_of_moved (h : (x.moved old new q g).selected = some k) :
    x.selected = some k ∧ (old = some g → k ≠ q) := by
  rw [SelGroup.moved_selected] at h
  split at h
  next => cases h
  next kept => exact ⟨h, fun e hk => kept ⟨e, hk ▸ h⟩⟩

end

/-- Position `q` becomes `b`, leaves the group it named and joins the one it comes to name. -/
structure Moved (s t : State) (q : KeyPos) (b : Binding) : Prop where
  table : t.table = upd s.table q b
  group : ∀ g : GroupId, t.groups[g] = s.groups[g].map (SelGroup.moved s.table[q].cls.group? b.cls.group? q g)

section
variable {s t : State} {q : KeyPos} {b : Binding}

theorem moved_map (old new : Option GroupId) (g : GroupId) (y : Option SelGroup) :
    y.map (SelGroup.moved old new q g) =
      let z := if old = some g then y.map (·.left q) else y
      if new = some g then z.map SelGroup.joined else z := by
  unfold SelGroup.moved
  cases y <;> split_ifs <;> rfl

theorem State.acquire_moved (p : Port) (a : AttrSet) (free : s.table[q].cls.group? = none) :
    Moved s (s.acquire p a q) q (s.table[q].take p a) where
  table := s.acquire_table p a q
  group g := by
    rw [s.acquire_group p a q g, moved_map, free]
    rfl

theorem State.grant_moved (e : Option AskId) (p h : Port) (a : AttrSet) :
    Moved s (s.grant e p h a q) q (s.table[q].take p a) where
  table := s.grant_table e p h a q
  group g := by
    rw [s.grant_group e p h a q g, moved_map]
    rfl

/-- Everything that a position's binding and a group's record promise one another is kept where the position moves. -/
theorem State.GroupLaw.moved (law : s.GroupLaw) (h : Moved s t q b)
    (room : ∀ g, b.cls = .select g → ∃ x, s.groups[g] = some x ∧ b.owner = some x.owner ∧
      (x.count < 128 ∨ s.table[q].cls = .select g)) : t.GroupLaw := by
  have member : ∀ g, s.table[q].cls = .select g → 1 ≤ s.members g := fun g hg =>
    Nat.one_le_iff_ne_zero.mpr fun zero => State.members_eq_zero.mp zero q hg
  have counted : ∀ g : GroupId, ((t.groups[g].map SelGroup.count).getD 0) = t.members g ∧ t.members g ≤ 128 := by
    intro g
    have here := member g
    have unnamed : s.members g = 0 → s.table[q].cls ≠ .select g := fun zero => State.members_eq_zero.mp zero q
    have step := State.members_upd h.table g
    have count := law.count g
    have within := law.room g
    generalize s.members g = m at here unnamed step count within
    generalize t.members g = m' at step ⊢
    rw [h.group g]
    have old : s.table[q].cls.group? = some g ↔ s.table[q].cls = .select g := KeyClass.eq_select
    have new : b.cls.group? = some g ↔ b.cls = .select g := KeyClass.eq_select
    cases hg : s.groups[g] with
    | none =>
      rw [hg] at count
      have zero : m = 0 := count.symm
      have notOld := unnamed zero
      have notNew : b.cls ≠ .select g := fun e => by
        obtain ⟨x, hx, -⟩ := room g e
        rw [hg] at hx
        cases hx
      rw [if_neg notOld, if_neg notNew] at step
      simp only [Option.map_none, Option.getD_none]
      omega
    | some x =>
      rw [hg] at count
      have count : x.count = m := count
      simp only [Option.map_some, Option.getD_some, SelGroup.moved_count, old, new]
      have fits : b.cls = .select g → s.table[q].cls ≠ .select g → x.count < 128 := fun e n => by
        obtain ⟨y, hy, -, less | same⟩ := room g e
        · rw [hg] at hy
          cases hy
          exact less
        · exact absurd same n
      by_cases o : s.table[q].cls = .select g <;> by_cases n : b.cls = .select g <;>
        simp only [o, n, if_true, if_false] at step fits here ⊢ <;> grind
  refine ⟨fun g => (counted g).1, fun g => (counted g).2, fun g y hy k hk => ?_, fun k g hg => ?_⟩
  · rw [h.group g] at hy
    obtain ⟨x, hx, rfl⟩ := Option.mem_map.mp hy
    obtain ⟨sel, away⟩ := SelGroup.selected_of_moved hk
    obtain ⟨cls, owner⟩ := law.selected g x hx k sel
    have other : k ≠ q := fun e => away (by rw [KeyClass.eq_select, ← cls]; simp only [e]) e
    rw [h.table, upd_ne _ _ _ _ other.symm, SelGroup.moved_owner]
    exact ⟨cls, owner⟩
  · have hg : t.table[k].cls.group? = some g := hg
    rw [h.group g]
    by_cases e : q = k
    · subst e
      have here : t.table[q] = b := by rw [h.table, upd_self]
      rw [here] at hg ⊢
      obtain ⟨x, hx, owner, -⟩ := room g (KeyClass.eq_select.mp hg)
      rw [hx]
      exact ⟨_, rfl, owner.trans (by rw [SelGroup.moved_owner])⟩
    · have away : t.table[k] = s.table[k] := by rw [h.table, upd_ne _ _ _ _ e]
      rw [away] at hg ⊢
      obtain ⟨x, hx, owner⟩ := law.named k g hg
      rw [hx]
      exact ⟨_, rfl, owner.trans (by rw [SelGroup.moved_owner])⟩

end

end Sys2Proof.Machine
end

section
/-! PROOF. The yield table while positions change (R40 to R42), and the release of a position with its ask (R26, R48). -/

namespace Sys2Proof.Machine

/-! ## A release -/

section
variable (s : State) (announce : Bool) {q : KeyPos}

/-- The stages of a release before the grant it brings about (R15). -/
def State.unbound (s : State) (announce : Bool) (q : KeyPos) : State :=
  ((s.withdraw announce q).leaveGroup announce q).unbind q

theorem State.unbound_table (q : KeyPos) :
    (s.unbound announce q).table = upd s.table q (Binding.unbound (s.table[q].gen + 1)) := by
  simp [State.unbound]

theorem State.unbound_group (q : KeyPos) (g : GroupId) : (s.unbound announce q).groups[g] =
    if s.table[q].cls.group? = some g then s.groups[g].map (·.left q) else s.groups[g] := by
  rw [State.unbound, (State.unbind_frame _ _).2.2.1, State.leaveGroup_group, (State.withdraw_frame _ _ _).1,
    (State.withdraw_frame _ _ _).2.2.1]

theorem State.unbound_asks (q : KeyPos) : (s.unbound announce q).asks = s.asks := by
  simp [State.unbound]

theorem State.unbound_ports (q : KeyPos) : (s.unbound announce q).ports = s.ports := by
  simp [State.unbound]

theorem State.unbound_askOn (q : KeyPos) : (s.unbound announce q).askOn q = s.askOn q := by
  simp only [State.askOn, State.unbound_asks]

theorem State.releasePos_unasked (h : s.askOn q = none) :
    s.releasePos announce q = (s.unbound announce q).rederive q := by
  rw [State.releasePos]
  show ((s.unbound announce q).grantReleased announce s.table[q] q).rederive q = _
  rw [State.grantReleased_none _ ((s.unbound_askOn announce q).trans h)]

/-- A position released without an ask is unbound and leaves its group (R25, R26). -/
theorem State.releasePos_unasked_moved (h : s.askOn q = none) :
    Moved s (s.releasePos announce q) q (Binding.unbound (s.table[q].gen + 1)) ∧
      (s.releasePos announce q).asks = s.asks ∧ (s.releasePos announce q).ports = s.ports := by
  rw [s.releasePos_unasked announce h]
  refine ⟨⟨?_, fun g => ?_⟩, ?_, ?_⟩
  · rw [(State.rederive_frame _ _).1, s.unbound_table]
  · rw [(State.rederive_frame _ _).2.2.2.1, s.unbound_group, moved_map]
    rfl
  · rw [(State.rederive_frame _ _).2.2.2.2.1, s.unbound_asks]
  · rw [(State.rederive_frame _ _).2.2.2.2.2.2.2.2.2.2.1, s.unbound_ports]

/-- A position released with an ask pending becomes the asker's, and the asker is answered (R48). -/
theorem State.releasePos_asked_moved {i : AskId} {a : Ask} (h : s.askOn q = some (i, a)) :
    Moved s (s.releasePos announce q) q ((Binding.unbound (s.table[q].gen + 1)).take a.asker a.set) ∧
      (s.releasePos announce q).asks = upd s.asks i none ∧
      (s.releasePos announce q).ports = (s.answer a.asker .granted [s.table[q].gen + 2]).ports := by
  let u := s.unbound announce q
  let v := if announce then u.offer a.holder (yieldReport .yielded q s.table[q] (countHalf a.asker.1)) else u
  have table : v.table = u.table := by simp only [v]; cases announce <;> simp
  have groups : v.groups = u.groups := by simp only [v]; cases announce <;> simp
  have asks : v.asks = u.asks := by simp only [v]; cases announce <;> simp
  have ports : v.ports = u.ports := by simp only [v]; cases announce <;> simp
  have record : u.table[q] = Binding.unbound (s.table[q].gen + 1) := by
    simp only [u, s.unbound_table]
    exact upd_self _ _ _
  have written : (v.bindTo a.asker a.set q).table = upd u.table q (u.table[q].take a.asker a.set) := by
    rw [State.bindTo_table, table]
  have eq : s.releasePos announce q = (((((v.bindTo a.asker a.set q).joinGroup q).removeAsk (some i)).answerGranted
      a.asker q).rederive q).rederive q := by
    rw [State.releasePos]
    show ((s.unbound announce q).grantReleased announce s.table[q] q).rederive q = _
    rw [State.grantReleased, (s.unbound_askOn announce q).trans h]
  refine ⟨⟨?_, fun g => ?_⟩, ?_, ?_⟩
  · rw [eq]
    simp only [State.rederive_frame, State.answerGranted_frame, State.removeAsk_frame, State.joinGroup_frame]
    rw [written, record]
    simp only [u, s.unbound_table]
    exact upd_upd _ _ _ _
  · rw [eq]
    simp only [State.rederive_frame, State.answerGranted_frame, State.removeAsk_frame]
    rw [State.joinGroup_group, written, upd_self, (State.bindTo_frame _ _ _ _).2.2.1, groups]
    simp only [u, s.unbound_group]
    rw [moved_map]
    rfl
  · rw [eq]
    simp [State.removeAsk, asks, u, s.unbound_asks]
  · rw [eq]
    simp only [State.rederive_frame]
    have gen : (((v.bindTo a.asker a.set q).joinGroup q).removeAsk (some i)).table[q].gen = s.table[q].gen + 2 := by
      simp only [State.removeAsk_frame, State.joinGroup_frame, written, upd_self, record, Binding.take, Binding.unbound]
      rw [BitVec.add_assoc]
      rfl
    rw [State.answerGranted, gen]
    exact State.answer_ports_congr (by simp [ports, u, s.unbound_ports]) _ _ _

end

/-! ## The law of the yield table, but for the presence of the holders -/

/-- The law of the yield table without its clause on presence, which alone a lapse may break for a while. -/
structure State.AskLaw (s : State) : Prop where
  holder : ∀ (i : AskId) a, s.asks[i] = some a → s.table[a.pos].owner = some a.holder ∧ s.table[a.pos].hold = .opened
  other : ∀ (i : AskId) a, s.asks[i] = some a → a.asker ≠ a.holder
  working : ∀ (i : AskId) a, s.asks[i] = some a →
    ∃ raw : RawAttrs, raw.validate = some a.set ∧ WorkingOn s a.asker (.yieldAsk (BitVec.ofNat 16 a.pos.1) raw)
  distinct : ∀ (i j : AskId) a b, s.asks[i] = some a → s.asks[j] = some b → i ≠ j → a.pos ≠ b.pos ∧ a.asker ≠ b.asker
  group : ∀ (i : AskId) a, s.asks[i] = some a → ∀ g, a.set.cls = .select g →
    ∃ x, s.groups[g] = some x ∧ x.owner = a.asker ∧ x.count < 128

/-- Every holder of an ask is PRESENT. -/
def State.HoldersPresent (s : State) : Prop :=
  ∀ (i : AskId) a, s.asks[i] = some a → s.presence[a.holder] = .present

section
variable {s t : State}

theorem State.yieldLaw_iff : s.YieldLaw ↔ s.AskLaw ∧ s.HoldersPresent := by
  refine ⟨fun h => ⟨⟨h.holder, fun i a ha => (h.present i a ha).1, h.working,
    fun i j a b ha hb => h.distinct i j a ha b hb, fun i a ha g hg => ?_⟩, fun i a ha => (h.present i a ha).2⟩, fun h => ?_⟩
  · obtain ⟨x, hx, owner, room⟩ := h.group i a ha g (KeyClass.eq_select.mpr hg)
    exact ⟨x, hx, owner, room⟩
  · obtain ⟨law, present⟩ := h
    refine ⟨law.holder, fun i a ha => ⟨law.other i a ha, present i a ha⟩, law.working,
      fun i j a ha b hb => law.distinct i j a b ha hb, fun i a ha g hg => ?_⟩
    obtain ⟨x, hx, owner, room⟩ := law.group i a ha g (KeyClass.eq_select.mp hg)
    exact ⟨x, hx, owner, room⟩

/-- A host that waits for no ask is in no entry. -/
theorem State.AskLaw.unasked (law : s.AskLaw) {p : Port} (h : s.Unasked p) (i : AskId) {a : Ask} (ha : s.asks[i] = some a) :
    a.asker ≠ p := by
  intro e
  subst e
  obtain ⟨raw, -, working⟩ := law.working i a ha
  exact State.askOf_eq_none_iff.mp (h _ _ working) i a ha rfl

/-- Entries that stay while their positions, their askers' ports and their groups stay fit for them. -/
theorem State.AskLaw.kept (law : s.AskLaw) (asks : ∀ (i : AskId) a, t.asks[i] = some a → s.asks[i] = some a)
    (holder : ∀ (i : AskId) a, t.asks[i] = some a → t.table[a.pos].owner = some a.holder ∧ t.table[a.pos].hold = .opened)
    (working : ∀ (i : AskId) a, t.asks[i] = some a → ∀ r, WorkingOn s a.asker r → WorkingOn t a.asker r)
    (group : ∀ (i : AskId) a, t.asks[i] = some a → ∀ (g : GroupId) x, s.groups[g] = some x → x.owner = a.asker →
      ∃ y, t.groups[g] = some y ∧ y.owner = x.owner ∧ y.count ≤ x.count) : t.AskLaw where
  holder := holder
  other i a ha := law.other i a (asks i a ha)
  working i a ha := by
    obtain ⟨raw, valid, works⟩ := law.working i a (asks i a ha)
    exact ⟨raw, valid, working i a ha _ works⟩
  distinct i j a b ha hb := law.distinct i j a b (asks i a ha) (asks j b hb)
  group i a ha g hg := by
    obtain ⟨x, hx, owner, room⟩ := law.group i a (asks i a ha) g hg
    obtain ⟨y, hy, same, less⟩ := group i a ha g x hx owner
    exact ⟨y, hy, same.trans owner, lt_of_le_of_lt less room⟩

/-- Nothing that the law reads has changed but the ports, and those WORKING on an ask not at all. -/
theorem State.AskLaw.of_same (law : s.AskLaw) (asks : t.asks = s.asks) (table : t.table = s.table)
    (groups : t.groups = s.groups)
    (working : ∀ (i : AskId) a, s.asks[i] = some a → ∀ r, WorkingOn s a.asker r → WorkingOn t a.asker r) : t.AskLaw := by
  refine law.kept (fun i a ha => asks ▸ ha) (fun i a ha => ?_) (fun i a ha => working i a (asks ▸ ha)) ?_
  · rw [table]
    exact law.holder i a (asks ▸ ha)
  · intro i a _ g x hx _
    rw [groups]
    exact ⟨x, hx, rfl, le_rfl⟩

/-- A position moves, and no entry that stays is troubled by it. -/
theorem State.AskLaw.moved (law : s.AskLaw) {q : KeyPos} {b : Binding} (h : Moved s t q b)
    (asks : ∀ (i : AskId) a, t.asks[i] = some a → s.asks[i] = some a)
    (here : ∀ (i : AskId) a, t.asks[i] = some a → a.pos = q → b.owner = some a.holder ∧ b.hold = .opened)
    (working : ∀ (i : AskId) a, t.asks[i] = some a → ∀ r, WorkingOn s a.asker r → WorkingOn t a.asker r)
    (join : ∀ (g : GroupId) x, b.cls = .select g → s.groups[g] = some x → ∀ (i : AskId) a, t.asks[i] = some a → x.owner ≠ a.asker) :
    t.AskLaw := by
  refine law.kept asks (fun i a ha => ?_) working fun i a ha g x hx owner => ?_
  · by_cases e : a.pos = q
    · have := here i a ha e
      subst e
      rwa [h.table, upd_self]
    · rw [h.table, upd_ne _ _ _ _ (Ne.symm e)]
      exact law.holder i a (asks i a ha)
  · have notJoined : b.cls.group? ≠ some g := fun e => join g x (KeyClass.eq_select.mp e) hx i a ha owner
    refine ⟨_, by rw [h.group g, hx, Option.map_some], SelGroup.moved_owner, ?_⟩
    rw [SelGroup.moved_count, if_neg notJoined]
    omega

/-- The port of an asker that keeps waiting is not the port answered. -/
theorem WorkingOn.answer_other {p k : Port} {r : Request} (h : WorkingOn s k r) (e : k ≠ p) (st : StatusCode)
    (d : List Byte) : WorkingOn (s.answer p st d) k r := by
  rw [WorkingOn, State.answer_other s (Ne.symm e)]
  exact h

theorem removed_ask {i j : AskId} {a : Ask} (h : (upd s.asks i none)[j] = some a) : j ≠ i ∧ s.asks[j] = some a := by
  by_cases e : i = j
  · subst e
    rw [upd_self] at h
    cases h
  · rw [upd_ne _ _ _ _ e] at h
    exact ⟨Ne.symm e, h⟩

/-- The entry of an asker goes and the asker is answered. -/
theorem State.AskLaw.endAsk (law : s.AskLaw) {i : AskId} {a : Ask} (ask : s.asks[i] = some a) (st : StatusCode) :
    (s.endAsk i a st).AskLaw := by
  have asks : (s.endAsk i a st).asks = upd s.asks i none := by simp [State.endAsk, State.removeAsk]
  refine law.kept (fun j b hb => ?_) (fun j b hb => ?_) (fun j b hb r hr => ?_) fun j b hb g x hx _ => ?_
  all_goals
    rw [asks] at hb
    obtain ⟨ne, hb⟩ := removed_ask hb
  · exact hb
  · rw [(State.endAsk_frame _ _ _ _).1]
    exact law.holder j b hb
  · refine WorkingOn.answer_other (s := s.removeAsk (some i)) (hr.congr ?_) (law.distinct j i b a hb ask ne).2 st []
    simp
  · refine ⟨x, ?_, rfl, le_rfl⟩
    rw [← hx]
    simp

end

end Sys2Proof.Machine
end

section
/-! PROOF. The asks that a walk over positions or entries ends, each once, and what their askers are answered. -/

namespace Sys2Proof.Machine

/-- From `s` to `t` the asks of which `gone` holds have ended, each asker answered as `f` says; the other asks and the
other ports are as in `s`. -/
structure AsksEnd (s t : State) (gone : Ask → Prop) (f : Ask → Answer) : Prop where
  asks : ∀ (j : AskId) b, t.asks[j] = some b ↔ s.asks[j] = some b ∧ ¬ gone b
  ended : ∀ (j : AskId) b, s.asks[j] = some b → gone b →
    t.ports[b.asker] = { s.ports[b.asker] with state := .answered (f b) }
  port : ∀ p : Port, (∀ (j : AskId) b, s.asks[j] = some b → gone b → b.asker ≠ p) → t.ports[p] = s.ports[p]

section
variable {s t u : State} {gone gone' : Ask → Prop} {f : Ask → Answer}

theorem AsksEnd.refl (s : State) (f : Ask → Answer) (none : ∀ (j : AskId) b, s.asks[j] = some b → ¬ gone b) :
    AsksEnd s s gone f where
  asks j b := ⟨fun h => ⟨h, none j b h⟩, fun h => h.1⟩
  ended j b hb g := absurd g (none j b hb)
  port _ _ := rfl

theorem AsksEnd.next (h : AsksEnd s t gone f) (asks : u.asks = t.asks) (ports : u.ports = t.ports)
    (same : ∀ (j : AskId) b, s.asks[j] = some b → (gone' b ↔ gone b)) : AsksEnd s u gone' f where
  asks j b := by
    rw [asks, h.asks j b]
    exact and_congr_right fun hb => not_congr (same j b hb).symm
  ended j b hb g := by
    rw [ports]
    exact h.ended j b hb ((same j b hb).mp g)
  port p none := by
    rw [ports]
    exact h.port p fun j b hb g => none j b hb ((same j b hb).mpr g)

/-- One more ask ends. -/
theorem AsksEnd.one (h : AsksEnd s t gone f) (law : s.AskLaw) {i : AskId} {a : Ask} {st : StatusCode} {d : List Byte}
    (ask : t.asks[i] = some a) (asks : u.asks = upd t.asks i none) (ports : u.ports = (t.answer a.asker st d).ports)
    (answer : f a = ⟨st, 0x20, d⟩) (more : ∀ (j : AskId) b, s.asks[j] = some b → (gone' b ↔ gone b ∨ j = i)) :
    AsksEnd s u gone' f := by
  obtain ⟨ask, stays⟩ := (h.asks i a).mp ask
  obtain ⟨raw, -, working⟩ := law.working i a ask
  have asker : t.ports[a.asker] = s.ports[a.asker] := h.port a.asker fun j b hb g => by
    refine (law.distinct j i b a hb ask fun e => ?_).2
    subst e
    rw [ask] at hb
    cases hb
    exact stays g
  have works : WorkingOn t a.asker (.yieldAsk (BitVec.ofNat 16 a.pos.1) raw) := by
    rw [WorkingOn, asker]
    exact working
  refine ⟨fun j b => ?_, fun j b hb g => ?_, fun p none => ?_⟩
  · rw [asks]
    by_cases e : i = j
    · subst e
      rw [upd_self]
      refine ⟨fun k => (by cases k), fun k => absurd ((more i b k.1).mpr (.inr rfl)) k.2⟩
    · rw [upd_ne _ _ _ _ e, h.asks j b]
      refine and_congr_right fun hb => not_congr ?_
      rw [more j b hb]
      exact ⟨.inl, fun k => k.resolve_right (Ne.symm e)⟩
  · rw [ports]
    obtain g | rfl := (more j b hb).mp g
    · have other : a.asker ≠ b.asker := fun e => by
        by_cases same : i = j
        · subst same
          rw [ask] at hb
          cases hb
          exact stays g
        · exact (law.distinct i j a b ask hb same).2 e
      rw [State.answer_other t other]
      exact h.ended j b hb g
    · rw [ask] at hb
      cases hb
      rw [State.answer_working works, State.setPort_ports, upd_self, asker, answer]
      rfl
  · have notAsker : a.asker ≠ p := none i a ask ((more i a ask).mpr (.inr rfl))
    rw [ports, State.answer_other t notAsker]
    exact h.port p fun j b hb g => none j b hb ((more j b hb).mpr (.inl g))

/-- The ask of a position ends, if there is one. -/
theorem AsksEnd.position (h : AsksEnd s t gone f) (law : s.AskLaw) {q : KeyPos} {st : StatusCode} {d : List Byte}
    (none : t.askOn q = none → u.asks = t.asks ∧ u.ports = t.ports)
    (some : ∀ i a, t.askOn q = some (i, a) → u.asks = upd t.asks i .none ∧ u.ports = (t.answer a.asker st d).ports ∧
      f a = ⟨st, 0x20, d⟩) :
    AsksEnd s u (fun b => gone b ∨ b.pos = q) f := by
  cases ask : t.askOn q with
  | none =>
    obtain ⟨asks, ports⟩ := none ask
    refine h.next asks ports fun j b hb => ⟨fun g => g.elim id fun e => by_contra fun stays => ?_, .inl⟩
    exact State.askOn_eq_none_iff.mp ask j b ((h.asks j b).mpr ⟨hb, stays⟩) e
  | some e =>
    obtain ⟨i, a⟩ := e
    obtain ⟨asks, ports, answer⟩ := some i a ask
    obtain ⟨ask, here⟩ := State.askOn_mem ask
    refine h.one law ask asks ports answer fun j b hb => or_congr_right ?_
    obtain ⟨ask, -⟩ := (h.asks i a).mp ask
    refine ⟨fun e => by_contra fun ne => (law.distinct j i b a hb ask ne).1 (e.trans here.symm), fun e => ?_⟩
    subst e
    rw [ask] at hb
    cases hb
    exact here

end

end Sys2Proof.Machine
end

section
/-! PROOF. Walks over a range: the holds (R28 to R30, R52) and the lamp values (R32, R127). -/

namespace Sys2Proof.Machine

/-! ## Walks -/

section
variable {s t : State} {l : List Part}

theorem OnlyChanges.refl (s : State) (l : List Part) : OnlyChanges s s l := by
  intro x _
  cases x <;> rfl

theorem OnlyChanges.foldl {α : Type} {effect : State → α → State} (h : ∀ t q, OnlyChanges t (effect t q) l)
    (qs : List α) (s : State) : OnlyChanges s (qs.foldl effect s) l := by
  induction qs generalizing s with
  | nil => exact .refl s l
  | cons q qs ih => exact (h s q).trans (ih _) l (fun _ h => h) fun _ h => h

theorem State.answer_onlyChanges (s : State) (p : Port) (st : StatusCode) (d : List Byte) :
    OnlyChanges s (s.answer p st d) [.ports] := by
  intro x hx
  cases x
  case ports => exact absurd (by simp) hx
  all_goals simp [Part.Same]

/-- A walk over a range and the answer behind it. -/
theorem OnlyChanges.answer (h : OnlyChanges s t l) (p : Port) (st : StatusCode) (d : List Byte) (m : List Part)
    (hl : ∀ x ∈ l, x ∈ m) (ports : Part.ports ∈ m) : OnlyChanges s (t.answer p st d) m :=
  h.trans (t.answer_onlyChanges p st d) m hl fun _ hx => List.mem_singleton.mp hx ▸ ports

/-- What holds of the positions visited is carried from each position to the next. -/
theorem walk_induct {α : Type} {P : List α → State → Prop} {effect : State → α → State} {qs : List α}
    (nodup : qs.Nodup) (base : P [] s)
    (step : ∀ (v : List α) (q : α) (t : State), q ∉ v → q ∈ qs → P v t → P (v ++ [q]) (effect t q)) :
    P qs (qs.foldl effect s) := by
  have walk : ∀ (rest v : List α) (t : State), v ++ rest = qs → P v t → P qs (rest.foldl effect t) := by
    intro rest
    induction rest with
    | nil =>
      intro v t e h
      rw [List.append_nil] at e
      exact e ▸ h
    | cons q rest ih =>
      intro v t e h
      have split : (v ++ [q]) ++ rest = qs := by rw [← e, List.append_assoc, List.singleton_append]
      refine ih (v ++ [q]) _ split (step v q t (fun hq => ?_) (by rw [← split]; simp) h)
      rw [← e] at nodup
      exact (List.nodup_append.mp nodup).2.2 q hq q (by simp) rfl
  exact walk qs [] s rfl base

end

/-- The records of `l` are rewritten by `f`, and no other. -/
def Rewritten (s t : State) (f : Binding → Binding) (l : List KeyPos) : Prop :=
  ∀ k : KeyPos, t.table[k] = if k ∈ l then f s.table[k] else s.table[k]

section
variable {s t u : State} {f : Binding → Binding} {l : List KeyPos} {q : KeyPos}

theorem Rewritten.nil (s : State) (f : Binding → Binding) : Rewritten s s f [] :=
  fun _ => by simp

theorem Rewritten.next (h : Rewritten s t f l) (fresh : q ∉ l) (table : u.table = upd t.table q (f t.table[q])) :
    Rewritten s u f (l ++ [q]) := by
  intro k
  rw [table]
  by_cases e : q = k
  · subst e
    rw [upd_self, h q, if_neg fresh, if_pos (by simp)]
  · rw [upd_ne _ _ _ _ e, h k]
    simp only [List.mem_append, List.mem_singleton, Ne.symm e, or_false]

end

/-! ## Asks ended by a request of another port -/

section
variable {s t : State} {gone : Ask → Prop} {f : Ask → Answer} {p : Port} {r : Request}

theorem State.AskLaw.asker_ne (law : s.AskLaw) (hw : WorkingOn s p r) (hr : ∀ w raw, r ≠ .yieldAsk w raw) {j : AskId}
    {b : Ask} (hb : s.asks[j] = some b) : b.asker ≠ p :=
  law.unasked (State.unasked_of_working hw hr) j hb

/-- The port that a walk leaves WORKING is answered behind it. -/
theorem AsksEnd.answers (h : AsksEnd s t gone f) (law : s.AskLaw) (hw : WorkingOn s p r)
    (hr : ∀ w raw, r ≠ .yieldAsk w raw) (st : StatusCode) (d : List Byte) :
    (t.answer p st d).ports[p] = { s.ports[p] with state := .answered ⟨st, r.code, d⟩ } ∧
    (∀ (j : AskId) b, s.asks[j] = some b → gone b →
      (t.answer p st d).asks[j] = none ∧
      (t.answer p st d).ports[b.asker] = { s.ports[b.asker] with state := .answered (f b) }) ∧
    (∀ (j : AskId) b, s.asks[j] = some b → ¬ gone b →
      (t.answer p st d).asks[j] = some b ∧ (t.answer p st d).ports[b.asker] = s.ports[b.asker]) := by
  have port : t.ports[p] = s.ports[p] := h.port p fun j b hb _ => law.asker_ne hw hr hb
  have asks : (t.answer p st d).asks = t.asks := by simp
  refine ⟨?_, fun j b hb g => ⟨?_, ?_⟩, fun j b hb g => ⟨?_, ?_⟩⟩
  · have works : WorkingOn t p r := by rwa [WorkingOn, port]
    rw [State.answer_working works, State.setPort_ports, upd_self, port]
  · rw [asks]
    refine Option.eq_none_iff_forall_ne_some.mpr fun c hc => ?_
    obtain ⟨hc, stays⟩ := (h.asks j c).mp hc
    rw [hb] at hc
    cases hc
    exact stays g
  · rw [State.answer_other t (law.asker_ne hw hr hb).symm]
    exact h.ended j b hb g
  · rw [asks]
    exact (h.asks j b).mpr ⟨hb, g⟩
  · rw [State.answer_other t (law.asker_ne hw hr hb).symm]
    refine h.port b.asker fun i c hc gone => ?_
    by_cases e : i = j
    · subst e
      rw [hb] at hc
      cases hc
      exact absurd gone g
    · exact (law.distinct i j c b hc hb e).2

end

/-! ## Holds -/

section
variable {s : State}

theorem State.endAskOn_some {q : KeyPos} {i : AskId} {a : Ask} (h : s.askOn q = some (i, a)) (st : StatusCode) :
    s.endAskOn q st = s.endAsk i a st := by
  simp only [State.endAskOn, h]

theorem State.endAskOn_none {q : KeyPos} (h : s.askOn q = none) (st : StatusCode) : s.endAskOn q st = s := by
  simp only [State.endAskOn, h]

theorem State.endAsk_asks (s : State) (i : AskId) (a : Ask) (st : StatusCode) :
    (s.endAsk i a st).asks = upd s.asks i none := by
  simp [State.endAsk, State.removeAsk]

theorem State.endAsk_ports (s : State) (i : AskId) (a : Ask) (st : StatusCode) :
    (s.endAsk i a st).ports = (s.answer a.asker st []).ports :=
  State.answer_ports_congr (s := s) (t := s.removeAsk (some i)) (by simp) _ _ _

/-- The walk of PIN and FIX: the holds of the range, and the asks on it ended (R28, R30, R52). -/
theorem hold_walk_spec (law : s.AskLaw) (h : Hold) (st : StatusCode) {qs : List KeyPos} (nodup : qs.Nodup) :
    Rewritten s (qs.foldl (fun t q => (t.setHold h q).endAskOn q st) s) (fun b => { b with hold := h }) qs ∧
    AsksEnd s (qs.foldl (fun t q => (t.setHold h q).endAskOn q st) s) (fun a => a.pos ∈ qs) (fun _ => ⟨st, 0x20, []⟩) := by
  refine walk_induct (P := fun v t => Rewritten s t (fun b => { b with hold := h }) v ∧
    AsksEnd s t (fun a => a.pos ∈ v) (fun _ => ⟨st, 0x20, []⟩)) nodup
    ⟨.nil s _, .refl s _ fun _ _ _ => List.not_mem_nil⟩ fun v q t fresh _ ⟨table, asks⟩ => ⟨?_, ?_⟩
  · refine table.next fresh ?_
    rw [(State.endAskOn_frame _ _ _).1]
    rfl
  · have ends : AsksEnd s ((t.setHold h q).endAskOn q st) (fun b => b.pos ∈ v ∨ b.pos = q) (fun _ => ⟨st, 0x20, []⟩) := by
      refine asks.position law (st := st) (d := []) (fun none => ?_) fun i a ask => ⟨?_, ?_, rfl⟩
      · rw [State.endAskOn_none (s := t.setHold h q) none]
        exact ⟨rfl, rfl⟩
      · rw [State.endAskOn_some (s := t.setHold h q) ask]
        exact State.endAsk_asks _ i a st
      · rw [State.endAskOn_some (s := t.setHold h q) ask]
        exact (State.endAsk_ports _ i a st).trans (State.answer_ports_congr (s := t) (t := t.setHold h q) (by simp) _ _ _)
    exact ends.next rfl rfl fun j b _ => by simp

theorem hold_walk_changes (h : Hold) (st : StatusCode) (qs : List KeyPos) :
    OnlyChanges s (qs.foldl (fun t q => (t.setHold h q).endAskOn q st) s) [.table, .asks, .ports] := by
  refine .foldl (fun t q x hx => ?_) qs s
  cases x
  case table | asks | ports => exact absurd (by simp) hx
  all_goals simp [Part.Same]

/-- The walk of UNPIN (R29). -/
theorem unpin_walk_spec (h : Hold) {qs : List KeyPos} (nodup : qs.Nodup) :
    Rewritten s (qs.foldl (fun t q => t.setHold h q) s) (fun b => { b with hold := h }) qs :=
  walk_induct (P := fun v t => Rewritten s t (fun b => { b with hold := h }) v) nodup (.nil s _)
    fun _ _ _ fresh _ table => table.next fresh rfl

theorem unpin_walk_changes (h : Hold) (qs : List KeyPos) :
    OnlyChanges s (qs.foldl (fun t q => t.setHold h q) s) [.table] := by
  refine .foldl (fun t q x hx => ?_) qs s
  cases x
  case table => exact absurd (by simp) hx
  all_goals simp [Part.Same]

end

/-- Settles O31: the checks pass at every position, and the walk rewrites holds and ends asks. -/
theorem holdRequests : Obligations.HoldRequests := by
  intro s p f n qs range law
  have nodup := rangeOf_nodup range
  obtain ⟨law, -⟩ := State.yieldLaw_iff.mp law
  refine ⟨fun pass => ⟨fun hw => ?pin, fun hw => ?unpin⟩, fun pass p0 hw => ?fix⟩
  case pin =>
    have passes : firstFailure (s.ownRefusal p) 0 qs = none :=
      firstFailure_eq_none_iff.mpr fun q hq => State.ownRefusal_passes (pass q hq).1 (pass q hq).2
    obtain ⟨table, asks⟩ := hold_walk_spec law .pinned .refused nodup
    obtain ⟨port, ended, kept⟩ := asks.answers law hw nofun .ok [0]
    refine ⟨_, by rw [exec_pin_working hw, State.rangeRequest_passes range passes], fun k => ?_,
      fun i a ha => ⟨ended i a ha, fun out => ⟨(kept i a ha out).1, .inr (kept i a ha out).2⟩⟩, port,
      (hold_walk_changes .pinned .refused qs).answer p .ok [0] _ (fun _ h => h) (by simp)⟩
    rw [(State.answer_frame _ _ _ _).1]
    exact table k
  case unpin =>
    have passes : firstFailure (s.ownRefusal p) 0 qs = none :=
      firstFailure_eq_none_iff.mpr fun q hq => State.ownRefusal_passes (pass q hq).1 (pass q hq).2
    have walk := unpin_walk_changes (s := s) .opened qs
    have ports : (qs.foldl (fun t q => t.setHold .opened q) s).ports = s.ports := walk .ports (by simp)
    refine ⟨_, by rw [exec_unpin_working hw, State.rangeRequest_passes range passes], fun k => ?_, ?_,
      walk.answer p .ok [0] _ (fun x hx => List.mem_singleton.mp hx ▸ by simp) (by simp)⟩
    · rw [(State.answer_frame _ _ _ _).1]
      exact unpin_walk_spec .opened nodup k
    · rw [Answers, State.answer_working (hw.congr ports), State.setPort_ports, ports]
      rfl
  case fix =>
    subst p0
    have passes : firstFailure s.fixRefusal 0 qs = none :=
      firstFailure_eq_none_iff.mpr fun q hq => State.fixRefusal_passes (pass q hq).1 (pass q hq).2
    obtain ⟨table, asks⟩ := hold_walk_spec law .fixed .fixed nodup
    obtain ⟨port, ended, kept⟩ := asks.answers law hw nofun .ok [0]
    refine ⟨_, by rw [exec_fix_working hw, State.rangeRequest_passes range passes], fun k => ?_,
      fun i a ha => ⟨ended i a ha, fun out => ⟨(kept i a ha out).1, .inr (kept i a ha out).2⟩⟩, port,
      (hold_walk_changes .fixed .fixed qs).answer 0 .ok [0] _ (fun _ h => h) (by simp)⟩
    rw [(State.answer_frame _ _ _ _).1]
    exact table k

end Sys2Proof.Machine
end

section
/-! PROOF. What a lamp follows (R125), and the LAMP request (R32, R127). -/

namespace Sys2Proof.Machine

/-! ## What a lamp follows -/

/-- Position `k` is the selected position of group `g`. -/
def State.Selects (s : State) (g : GroupId) (k : KeyPos) : Prop :=
  ∃ x, s.groups[g] = some x ∧ x.selected = some k

section
variable {s t u : State} {k q : KeyPos}

theorem State.lampFor_unowned (h : s.table[k].owner = none) : s.lampFor k = .off := by
  simp only [State.lampFor, h]

theorem State.lampFor_host (owned : s.table[k].owner ≠ none) (mode : s.table[k].lampMode = .host) :
    s.lampFor k = s.table[k].lampValue := by
  obtain ⟨h, hh⟩ := Option.ne_none_iff_exists'.mp owned
  simp only [State.lampFor, hh, mode]

/-- A lamp follows four parts of its binding, whether there is a record of it, and whether it is selected. -/
theorem State.lampFor_follows (owner : t.table[k].owner = s.table[k].owner) (cls : t.table[k].cls = s.table[k].cls)
    (mode : t.table[k].lampMode = s.table[k].lampMode) (value : t.table[k].lampValue = s.table[k].lampValue)
    (held : (t.heldAt k).isSome = (s.heldAt k).isSome)
    (selected : ∀ g, s.table[k].cls = .select g → (t.Selects g k ↔ s.Selects g k)) : t.lampFor k = s.lampFor k := by
  unfold State.lampFor
  simp only [owner, cls, mode, value, held]
  cases hc : s.table[k].cls with
  | select g =>
    have same := selected g hc
    unfold State.Selects at same
    dsimp only
    generalize t.groups[g] = x at same ⊢
    generalize s.groups[g] = y at same ⊢
    cases x <;> cases y <;> simp at same <;> simp [same]
  | momentary | pressOnly | repeating i | toggle l => rfl

theorem State.selects_congr {g : GroupId} (h : t.groups[g] = s.groups[g]) : t.Selects g k ↔ s.Selects g k := by
  rw [State.Selects, State.Selects, h]

theorem State.heldAt_isSome_congr (h : t.held.map HeldRecord.pos = s.held.map HeldRecord.pos) (k : KeyPos) :
    (t.heldAt k).isSome = (s.heldAt k).isSome := by
  rw [Bool.eq_iff_iff, State.heldAt_isSome, State.heldAt_isSome, h]

/-- The lamps of the positions visited are drawn still. -/
theorem Redrawn.changed {l : List KeyPos} (h : Redrawn s t l) (derived : u.derived = t.derived) (dirty : u.dirty = t.dirty)
    (sent : u.sent = t.sent) (lamp : ∀ k ∈ l, u.lampFor k = t.lampFor k) : Redrawn s u l := by
  refine ⟨fun k => ?_, fun b => ?_⟩
  · rw [derived, h.1 k]
    split
    next visited => rw [lamp k visited]
    next => rfl
  · rw [dirty, derived, sent]
    exact h.2 b

/-- One more position changes and is re-derived. -/
theorem Redrawn.visit {l : List KeyPos} (h : Redrawn s t l) (derived : u.derived = t.derived) (dirty : u.dirty = t.dirty)
    (sent : u.sent = t.sent) (lamp : ∀ k ∈ l, u.lampFor k = t.lampFor k) (q : KeyPos) :
    Redrawn s (u.rederive q) (l ++ [q]) :=
  (h.changed derived dirty sent lamp).rederive q

end

/-! ## LAMP -/

section
variable {s : State}

theorem State.setLampValue_table (s : State) (v : Lamp) (q : KeyPos) :
    (State.setLampValue v s q).table = upd s.table q { s.table[q] with lampValue := v } := by
  rw [State.setLampValue, (State.rederive_frame _ _).1]
  rfl

theorem lamp_walk_spec (v : Lamp) {qs : List KeyPos} (nodup : qs.Nodup) :
    Rewritten s (qs.foldl (State.setLampValue v) s) (fun b => { b with lampValue := v }) qs ∧
    Redrawn s (qs.foldl (State.setLampValue v) s) qs := by
  refine walk_induct (P := fun l t => Rewritten s t (fun b => { b with lampValue := v }) l ∧ Redrawn s t l) nodup
    ⟨.nil s _, .nil rfl rfl⟩ fun l q t fresh _ ⟨table, drawn⟩ => ⟨table.next fresh (t.setLampValue_table v q), ?_⟩
  refine drawn.visit (u := t.setBinding q { t.table[q] with lampValue := v }) rfl rfl rfl (fun k hk => ?_) q
  exact State.lampFor_congr k (State.setBinding_other_table t (fun e : k = q => fresh (e ▸ hk)) _) rfl rfl

theorem lamp_walk_changes (v : Lamp) (qs : List KeyPos) :
    OnlyChanges s (qs.foldl (State.setLampValue v) s) [.table, .derived, .dirty] := by
  refine .foldl (fun t q x hx => ?_) qs s
  cases x
  case table | derived | dirty => exact absurd (by simp) hx
  all_goals simp [Part.Same, State.setLampValue]

end

/-- Settles O32: the value is written and the lamp drawn at each position. -/
theorem lampWritesTheRange : Obligations.LampWritesTheRange := by
  intro s p f n v qs l hw range value pass
  have nodup := rangeOf_nodup range
  have passes : firstFailure (s.lampRefusal p) 0 qs = none :=
    firstFailure_eq_none_iff.mpr fun q hq => State.lampRefusal_passes (pass q hq).1 (pass q hq).2
  obtain ⟨table, drawn, flags⟩ := lamp_walk_spec (s := s) l nodup
  have changes := lamp_walk_changes (s := s) l qs
  have ports : (qs.foldl (State.setLampValue l) s).ports = s.ports := changes .ports (by simp)
  have sent : (qs.foldl (State.setLampValue l) s).sent = s.sent := changes .sent (by simp)
  have good : lampValueOf v = some l := by rw [lampValueOf_eq]; exact value
  refine ⟨_, by rw [exec_lamp_of_good_value hw good, State.rangeRequest_passes range passes], ?_, fun q => ?_, fun q => ?_,
    fun b => ?_, changes.answer p .ok [0] _ (fun x hx => ?_) (by simp)⟩
  · rw [Answers, State.answer_working (hw.congr ports), State.setPort_ports, ports]
    rfl
  · rw [(State.answer_frame _ _ _ _).1]
    exact table q
  · rw [(State.answer_frame _ _ _ _).2.2.2.2.2.2.2.2.1, drawn q]
    split
    next hq =>
      have record := table q
      rw [if_pos hq] at record
      rw [State.lampFor_host (by rw [record, (pass q hq).1]; exact Option.some_ne_none p)
        (by rw [record]; exact (pass q hq).2), record]
    next => rfl
  · have same := flags b
    rw [sent] at same
    simpa using same
  · simp only [List.mem_cons, List.not_mem_nil, or_false] at hx ⊢
    rcases hx with rfl | rfl | rfl <;> simp

end Sys2Proof.Machine
end

section
/-! PROOF. Positions released one after another, by RELEASE and by LEAVE (R24 to R27, R36, R48). -/

namespace Sys2Proof.Machine

/-! ## The laws of the groups and the asks through a release -/

section
variable {s t : State} {q : KeyPos}

theorem BindingLaw.group?_of_free {b : Binding} (law : BindingLaw b) (free : b.owner = none) : b.cls.group? = none := by
  rw [law.unbound free]
  rfl

/-- The asks that a release with an ask pending leaves are of other positions and other askers (R41). -/
theorem State.releasePos_asks_left (asks : s.AskLaw) {i : AskId} {a : Ask} (ask : s.askOn q = some (i, a)) (announce : Bool)
    (j : AskId) {b : Ask} (hb : (s.releasePos announce q).asks[j] = some b) :
    s.asks[j] = some b ∧ b.pos ≠ q ∧ b.asker ≠ a.asker := by
  rw [(s.releasePos_asked_moved announce ask).2.1] at hb
  obtain ⟨ask, here⟩ := State.askOn_mem ask
  obtain ⟨ne, hb⟩ := removed_ask hb
  obtain ⟨pos, asker⟩ := asks.distinct j i b a hb ask ne
  exact ⟨hb, here ▸ pos, asker⟩

/-- A release keeps the asks in their law (R41, R48). -/
theorem State.releasePos_askLaw (asks : s.AskLaw) (announce : Bool) (q : KeyPos) : (s.releasePos announce q).AskLaw := by
  cases ask : s.askOn q with
  | none =>
    obtain ⟨moved, same, ports⟩ := s.releasePos_unasked_moved announce ask
    have away : ∀ (i : AskId) a, (s.releasePos announce q).asks[i] = some a → s.asks[i] = some a ∧ a.pos ≠ q :=
      fun i a ha => by
        rw [same] at ha
        exact ⟨ha, State.askOn_eq_none_iff.mp ask i a ha⟩
    exact asks.moved moved (fun i a ha => (away i a ha).1) (fun i a ha e => absurd e (away i a ha).2)
      (fun i a _ r hr => hr.congr ports) fun g x e => by cases e
  | some e =>
    obtain ⟨i, a⟩ := e
    obtain ⟨moved, -, ports⟩ := s.releasePos_asked_moved announce ask
    have others := fun j b hb => State.releasePos_asks_left asks ask announce j (b := b) hb
    refine asks.moved moved (fun j b hb => (others j b hb).1) (fun j b hb e => absurd e (others j b hb).2.1)
      (fun j b hb r hr => ?_) fun g x hg hx j b hb owner => ?_
    · rw [WorkingOn, ports]
      exact hr.answer_other (others j b hb).2.2 .granted _
    · obtain ⟨y, hy, owned, -⟩ := asks.group i a (State.askOn_mem ask).1 g hg
      rw [hx] at hy
      cases hy
      exact (others j b hb).2.2 (owner.symm.trans owned)

/-- A release keeps the groups in their law (R26, R48, R96). -/
theorem State.releasePos_groupLaw (groups : s.GroupLaw) (asks : s.AskLaw) (announce : Bool) (q : KeyPos) :
    (s.releasePos announce q).GroupLaw := by
  cases ask : s.askOn q with
  | none => exact groups.moved (s.releasePos_unasked_moved announce ask).1 fun g e => by cases e
  | some e =>
    obtain ⟨i, a⟩ := e
    refine groups.moved (s.releasePos_asked_moved announce ask).1 fun g hg => ?_
    obtain ⟨x, hx, owner, room⟩ := asks.group i a (State.askOn_mem ask).1 g hg
    exact ⟨x, hx, congrArg some owner.symm, .inl room⟩

/-! ## Selections and notices -/

theorem Moved.selects {b : Binding} (h : Moved s t q b) (g : GroupId) (k : KeyPos) :
    t.Selects g k ↔ s.Selects g k ∧ (k = q → s.table[q].cls ≠ .select g) := by
  unfold State.Selects
  rw [h.group g]
  cases s.groups[g] with
  | none => simp
  | some x =>
    simp only [Option.map_some, Option.some.injEq, exists_eq_left', SelGroup.moved_selected, KeyClass.eq_select]
    by_cases left : s.table[q].cls = .select g ∧ x.selected = some q
    · rw [if_pos left]
      refine ⟨fun h => (by cases h), fun ⟨h, stays⟩ => absurd left.1 (stays ?_)⟩
      exact Option.some.inj (h.symm.trans left.2)
    · rw [if_neg left]
      exact ⟨fun h => ⟨h, fun e cls => left ⟨cls, e ▸ h⟩⟩, And.left⟩

theorem State.noticeOf_congr (h : t.table[q] = s.table[q]) (k : NoticeKind) (n : Nat) (resync lost : Bool) :
    t.noticeOf k q n resync lost = s.noticeOf k q n resync lost := by
  simp only [State.noticeOf, h]

theorem State.withdrawnReport_congr (table : t.table[q] = s.table[q]) (held : t.heldAt q = s.heldAt q) :
    t.withdrawnReport q = s.withdrawnReport q := by
  unfold State.withdrawnReport
  rw [held]
  simp only [State.noticeOf_congr table]

theorem State.deselectedReport_congr (table : t.table[q] = s.table[q]) (selects : ∀ g, t.Selects g q ↔ s.Selects g q) :
    t.deselectedReport q = s.deselectedReport q := by
  unfold State.deselectedReport
  simp only [State.noticeOf_congr table, table]
  cases hc : s.table[q].cls with
  | select g =>
    have same := selects g
    unfold State.Selects at same
    dsimp only
    generalize t.groups[g] = x at same ⊢
    generalize s.groups[g] = y at same ⊢
    cases x <;> cases y <;> simp at same <;> simp [same]
  | momentary | pressOnly | repeating i | toggle l => rfl

theorem flatMap_eq_nil {α β : Type} {l : List α} {f : α → List β} (h : ∀ j ∈ l, f j = []) : l.flatMap f = [] :=
  List.flatMap_eq_nil_iff.mpr h

theorem flatMap_single {α β : Type} {l : List α} {f : α → List β} {i : α} (nodup : l.Nodup) (hi : i ∈ l)
    (others : ∀ j, j ≠ i → f j = []) : l.flatMap f = f i := by
  obtain ⟨before, after, rfl⟩ := List.append_of_mem hi
  obtain ⟨-, nodup, apart⟩ := List.nodup_append.mp nodup
  have front : before.flatMap f = [] := flatMap_eq_nil fun j hj => others j (apart j hj i (by simp))
  have back : after.flatMap f = [] := flatMap_eq_nil fun j hj =>
    others j fun e => (List.nodup_cons.mp nodup).1 (e ▸ hj)
  rw [List.flatMap_append, List.flatMap_cons, front, back, List.nil_append, List.append_nil]

theorem State.yieldedReport_none (h : s.askOn q = none) : s.yieldedReport q = [] := by
  refine flatMap_eq_nil fun i _ => ?_
  cases ha : s.asks[i] with
  | none => rfl
  | some a => exact if_neg (State.askOn_eq_none_iff.mp h i a ha)

theorem State.yieldedReport_some (law : s.AskLaw) {i : AskId} {a : Ask} (h : s.askOn q = some (i, a)) :
    s.yieldedReport q = [s.noticeOf .yielded q a.asker.1 false false] := by
  obtain ⟨ask, here⟩ := State.askOn_mem h
  refine (flatMap_single (i := i) (List.nodup_finRange 4) (List.mem_finRange i) fun j ne => ?_).trans ?_
  · cases hb : s.asks[j] with
    | none => rfl
    | some b => exact if_neg fun e => (law.distinct j i b a hb ask ne).1 (e.trans here.symm)
  · simp only [ask]
    exact if_pos here

end

end Sys2Proof.Machine
end

section
/-! PROOF. RELEASE and LEAVE (R24 to R27, R36, R37, R48): the walk, and the settling of their obligations. -/

namespace Sys2Proof.Machine

/-! ## One position released -/

section
variable {s : State} {q : KeyPos} {h : Port}

theorem State.heldAt_map_other {f : HeldRecord → HeldRecord} (pos : ∀ r, (f r).pos = r.pos) {t : State}
    (held : t.held = s.held.map f) (k : KeyPos) (same : ∀ r, r.pos = k → f r = r) : t.heldAt k = s.heldAt k := by
  unfold State.heldAt
  rw [held, List.find?_map]
  have test : ((fun r : HeldRecord => r.pos == k) ∘ f) = fun r => r.pos == k :=
    funext fun r => by simp only [Function.comp, pos]
  rw [test]
  cases found : s.held.find? (fun r => r.pos == k) with
  | none => rfl
  | some r =>
    have here : r.pos = k := by simpa using List.find?_some found
    rw [Option.map_some, same r here]

theorem State.releasePos_withdrawn (one : s.HeldLaw) (forms : ∀ r ∈ s.held, HeldForm r) (announce : Bool) (q : KeyPos) :
    (s.releasePos announce q).held = s.held.map (fun r => if r.pos = q then r.afterWithdrawal else r) := by
  rw [State.releasePos_held, State.withdraw_held one forms]

/-- Of the stages behind the unbound form only YIELDED is an offer. -/
theorem State.releasePos_asked_offers {i : AskId} {a : Ask} (ask : s.askOn q = some (i, a)) (announce : Bool) :
    let u := if announce then (s.unbound announce q).offer a.holder
      (yieldReport .yielded q s.table[q] (countHalf a.asker.1)) else s.unbound announce q
    (s.releasePos announce q).queues = u.queues ∧ (s.releasePos announce q).noteLow = u.noteLow := by
  intro u
  have eq : s.releasePos announce q = (((((u.bindTo a.asker a.set q).joinGroup q).removeAsk (some i)).answerGranted
      a.asker q).rederive q).rederive q := by
    rw [State.releasePos]
    show ((s.unbound announce q).grantReleased announce s.table[q] q).rederive q = _
    rw [State.grantReleased, (s.unbound_askOn announce q).trans ask]
  rw [eq]
  simp

/-- The notices of a release, in their order (R26, R70, R104, R48). -/
theorem State.releasePos_offered (law : s.AskLaw) (opened : s.OpenLaw) (forms : ∀ r ∈ s.held, HeldForm r)
    (owned : s.table[q].owner = some h) :
    Offered s (s.releasePos true q) h (s.withdrawnReport q ++ s.deselectedReport q ++ s.yieldedReport q) := by
  have first : Offered s (s.withdraw true q) h (s.withdrawnReport q) := State.withdraw_offered opened forms owned
  have second : Offered (s.withdraw true q) ((s.withdraw true q).leaveGroup true q) h
      ((s.withdraw true q).deselectedReport q) := State.leaveGroup_offered (by simpa using owned)
  have same : (s.withdraw true q).deselectedReport q = s.deselectedReport q :=
    State.deselectedReport_congr (by simp) fun g => State.selects_congr (by simp)
  rw [same] at second
  have both := first.trans second (by simp) (by simp)
  have unbound : Offered s (s.unbound true q) h (s.withdrawnReport q ++ s.deselectedReport q) :=
    both.congr (by simp [State.unbound]) (by simp [State.unbound])
  cases ask : s.askOn q with
  | none =>
    rw [s.releasePos_unasked true ask, State.yieldedReport_none ask, List.append_nil]
    exact unbound.congr (by simp) (by simp)
  | some e =>
    obtain ⟨i, a⟩ := e
    obtain ⟨entry, here⟩ := State.askOn_mem ask
    have holder : a.holder = h := by
      have := (law.holder i a entry).1
      subst here
      rw [owned] at this
      exact (Option.some.inj this).symm
    rw [State.yieldedReport_some law ask]
    have told := State.offer_offered (s.unbound true q) a.holder (yieldReport .yielded q s.table[q] (countHalf a.asker.1))
    rw [holder] at told
    have all := unbound.trans told (by simp [State.unbound]) (by simp [State.unbound])
    obtain ⟨queues, lines⟩ := State.releasePos_asked_offers ask true
    rw [if_pos rfl, holder] at queues lines
    exact all.congr queues lines

/-- A silent release offers nothing (R36). -/
theorem State.releasePos_silent (s : State) (q : KeyPos) :
    (s.releasePos false q).queues = s.queues ∧ (s.releasePos false q).noteLow = s.noteLow := by
  have withdrawn : (s.withdraw false q).queues = s.queues ∧ (s.withdraw false q).noteLow = s.noteLow := by
    unfold State.withdraw
    split
    · exact ⟨rfl, rfl⟩
    · split <;> simp [State.modifyHeld]
  have left : ∀ t : State, (t.leaveGroup false q).queues = t.queues ∧ (t.leaveGroup false q).noteLow = t.noteLow := by
    intro t
    by_cases isOpen : ∃ g x, t.table[q].cls.group? = some g ∧ t.groups[g] = some x
    · obtain ⟨g, x, named, hx⟩ := isOpen
      simp only [State.leaveGroup, named, hx]
      split
      · cases t.table[q].owner <;> simp
      · simp
    · rw [t.leaveGroup_free fun g named => Option.eq_none_iff_forall_ne_some.mpr fun x hx => isOpen ⟨g, x, named, hx⟩]
      exact ⟨rfl, rfl⟩
  have unbound : (s.unbound false q).queues = s.queues ∧ (s.unbound false q).noteLow = s.noteLow := by
    obtain ⟨queues, lines⟩ := left (s.withdraw false q)
    exact ⟨by simp [State.unbound, queues, withdrawn.1], by simp [State.unbound, lines, withdrawn.2]⟩
  cases ask : s.askOn q with
  | none =>
    rw [s.releasePos_unasked false ask]
    simpa using unbound
  | some e =>
    obtain ⟨queues, lines⟩ := State.releasePos_asked_offers (i := e.1) (a := e.2) ask false
    exact ⟨queues.trans unbound.1, lines.trans unbound.2⟩

end

/-! ## The positions released so far -/

section
variable {s t u : State} {gone : Ask → Prop} {f : Ask → Answer} {q : KeyPos}

/-- A position whose ask has not ended has the ask that it had. -/
theorem AsksEnd.askOn (h : AsksEnd s t gone f) (law : s.AskLaw)
    (stays : ∀ (j : AskId) b, s.asks[j] = some b → b.pos = q → ¬ gone b) : t.askOn q = s.askOn q := by
  cases ask : s.askOn q with
  | none =>
    refine State.askOn_none fun j b hb => ?_
    exact State.askOn_eq_none_iff.mp ask j b ((h.asks j b).mp hb).1
  | some e =>
    obtain ⟨i, a⟩ := e
    obtain ⟨ask, here⟩ := State.askOn_mem ask
    refine State.askOn_some ((h.asks i a).mpr ⟨ask, stays i a ask here⟩) here fun j b hb at_ => ?_
    by_contra ne
    exact (law.distinct j i b a ((h.asks j b).mp hb).1 ask ne).1 (at_.trans here.symm)

/-- The group table after one more position has moved. -/
theorem Regrouped.moved {leave join leave' join' : GroupId → List KeyPos} (h : Regrouped s t leave join) {b : Binding}
    (m : Moved t u q b) (member : ∀ (g : GroupId) y, t.table[q].cls = .select g → t.groups[g] = some y → 1 ≤ y.count)
    (left : ∀ g, leave' g = leave g ++ if t.table[q].cls = .select g then [q] else [])
    (joined : ∀ g, join' g = join g ++ if b.cls = .select g then [q] else []) : Regrouped s u leave' join' := by
  intro g
  obtain ⟨free, isOpen⟩ := h g
  refine ⟨fun hg => by rw [m.group g, free hg]; rfl, fun x hx => ?_⟩
  obtain ⟨y, hy, owner, mode, count, selected⟩ := isOpen x hx
  refine ⟨_, by rw [m.group g, hy, Option.map_some], SelGroup.moved_owner.trans owner, SelGroup.moved_mode.trans mode, ?_, ?_⟩
  · have one := fun e => member g y e hy
    rw [SelGroup.moved_count, left g, joined g]
    simp only [KeyClass.eq_select, List.length_append]
    by_cases l : t.table[q].cls = .select g <;> by_cases j : b.cls = .select g <;>
      simp only [l, j, if_true, if_false, List.length_singleton, List.length_nil] at one ⊢ <;> grind
  · rw [SelGroup.moved_selected, selected, left g]
    simp only [KeyClass.eq_select]
    by_cases l : t.table[q].cls = .select g
    · simp only [l, true_and, if_true, List.mem_append, List.mem_singleton, not_or]
      cases hs : x.selected with
      | none => simp
      | some k =>
        by_cases e : k = q <;> by_cases v : k ∈ leave g <;> simp [e, v, Option.filter]
    · simp only [l, false_and, if_false, List.append_nil]

/-- What a release writes at a position that had an ask (R48). -/
def releaseAnswer (s : State) (a : Ask) : Answer :=
  ⟨.granted, 0x20, [s.table[a.pos].gen + 2]⟩

/-- From `s` to `t` the positions of `l` have been released, in their order. -/
structure Released (s t : State) (l : List KeyPos) : Prop where
  other : ∀ k : KeyPos, k ∉ l → t.table[k] = s.table[k]
  unasked : ∀ q ∈ l, s.askOn q = none → t.table[q] = Binding.unbound (s.table[q].gen + 1)
  asked : ∀ q ∈ l, ∀ i a, s.askOn q = some (i, a) →
    t.table[q] = (Binding.unbound (s.table[q].gen + 1)).take a.asker a.set
  asks : AsksEnd s t (fun a => a.pos ∈ l) (releaseAnswer s)
  law : t.AskLaw
  held : t.held = s.held.map (fun r => if r.pos ∈ l then r.afterWithdrawal else r)
  one : t.HeldLaw
  opened : t.OpenLaw
  forms : ∀ r ∈ t.held, HeldForm r
  selects : ∀ (g : GroupId) (k : KeyPos), t.Selects g k ↔ s.Selects g k ∧ (k ∈ l → s.table[k].cls ≠ .select g)
  owners : ∀ g : GroupId, t.groups[g].map SelGroup.owner = s.groups[g].map SelGroup.owner
  drawn : Redrawn s t l
  groups : s.GroupLaw → t.GroupLaw ∧ Regrouped s t
    (fun g => l.filter (fun q => decide (s.table[q].cls = .select g))) (fun g => l.filter (s.askedInto g))

theorem Released.refl (law : s.AskLaw) (one : s.HeldLaw) (opened : s.OpenLaw) (forms : ∀ r ∈ s.held, HeldForm r) :
    Released s s [] where
  other _ _ := rfl
  unasked _ h := by cases h
  asked _ h := by cases h
  asks := .refl s _ fun _ _ _ => List.not_mem_nil
  law := law
  held := by simp
  one := one
  opened := opened
  forms := forms
  selects g k := by simp
  owners _ := rfl
  drawn := .nil rfl rfl
  groups h := ⟨h, fun g => ⟨fun h => h, fun x hx => ⟨x, hx, rfl, rfl, rfl, by cases x.selected <;> simp [Option.filter]⟩⟩⟩

theorem State.rederive_idem (s : State) (q : KeyPos) : (s.rederive q).rederive q = s.rederive q := by
  have lamp : (s.rederive q).lampFor q = s.lampFor q := State.lampFor_congr q (by simp) (by simp) (by simp)
  rw [State.rederive, lamp]
  simp only [State.rederive, upd_upd]

/-- The last stage of a release draws the lamp of its position. -/
theorem State.releasePos_rederives (s : State) (announce : Bool) (q : KeyPos) :
    ∃ u : State, s.releasePos announce q = u.rederive q ∧ u.derived = s.derived ∧ u.dirty = s.dirty ∧ u.sent = s.sent := by
  cases ask : s.askOn q with
  | none => exact ⟨_, s.releasePos_unasked announce ask, by simp [State.unbound]⟩
  | some e =>
    obtain ⟨i, a⟩ := e
    let u := if announce then (s.unbound announce q).offer a.holder
      (yieldReport .yielded q s.table[q] (countHalf a.asker.1)) else s.unbound announce q
    have same : u.derived = s.derived ∧ u.dirty = s.dirty ∧ u.sent = s.sent := by
      simp only [u]
      cases announce <;> simp [State.unbound]
    have eq : s.releasePos announce q = (((((u.bindTo a.asker a.set q).joinGroup q).removeAsk (some i)).answerGranted
        a.asker q).rederive q).rederive q := by
      rw [State.releasePos]
      show ((s.unbound announce q).grantReleased announce s.table[q] q).rederive q = _
      rw [State.grantReleased, (s.unbound_askOn announce q).trans ask]
    rw [State.rederive_idem] at eq
    exact ⟨_, eq, by simpa using same⟩

/-- One more position is re-derived after others whose lamps stay as they are. -/
theorem Redrawn.visited {l : List KeyPos} (h : Redrawn s t l) {v : State} (eq : u = v.rederive q)
    (derived : v.derived = t.derived) (dirty : v.dirty = t.dirty) (sent : v.sent = t.sent)
    (lamp : ∀ k ∈ l, u.lampFor k = t.lampFor k) : Redrawn s u (l ++ [q]) := by
  subst eq
  refine h.visit derived dirty sent (fun k hk => ?_) q
  rw [← lamp k hk]
  exact (State.lampFor_congr k (by simp) (by simp) (by simp)).symm

theorem State.askedInto_iff {g : GroupId} : s.askedInto g q = true ↔
    ∃ (i : AskId) (a : Ask), s.asks[i] = some a ∧ a.pos = q ∧ a.set.cls = .select g := by
  rw [State.askedInto, List.any_eq_true]
  refine ⟨fun ⟨i, _, h⟩ => ?_, fun ⟨i, a, ha, here, cls⟩ => ⟨i, List.mem_finRange i, ?_⟩⟩
  · cases ha : s.asks[i] with
    | none =>
      rw [ha] at h
      cases h
    | some a =>
      rw [ha] at h
      simp only [Bool.and_eq_true, decide_eq_true_eq] at h
      exact ⟨i, a, ha, h⟩
  · rw [ha]
    simp only [here, cls, decide_true, Bool.and_self]

theorem State.members_pos {g : GroupId} (h : s.table[q].cls = .select g) (law : s.GroupLaw) {x : SelGroup}
    (hx : s.groups[g] = some x) : 1 ≤ x.count := by
  have count := law.count g
  rw [hx] at count
  have count : x.count = s.members g := count
  have some : s.members g ≠ 0 := fun zero => State.members_eq_zero.mp zero q h
  generalize s.members g = m at count some
  omega

theorem filter_visited (l : List KeyPos) (q : KeyPos) (f : KeyPos → Bool) :
    (l ++ [q]).filter f = l.filter f ++ if f q = true then [q] else [] := by
  rw [List.filter_append]
  cases hf : f q <;> simp [hf]

/-- The position about to be released is as it was (R4). -/
theorem Released.fresh {l : List KeyPos} (h : Released s t l) (law : s.AskLaw) (fresh : q ∉ l) :
    t.table[q] = s.table[q] ∧ t.askOn q = s.askOn q ∧ t.heldAt q = s.heldAt q ∧
      ∀ g, t.Selects g q ↔ s.Selects g q := by
  refine ⟨h.other q fresh, h.asks.askOn law fun j b _ e gone => fresh (e ▸ gone), ?_, fun g => ?_⟩
  · refine State.heldAt_map_other (fun r => ?_) h.held q fun r e => if_neg (e ▸ fresh)
    split <;> rfl
  · rw [h.selects g q]
    exact ⟨And.left, fun k => ⟨k, fun v => absurd v fresh⟩⟩

/-- One more position is released. -/
theorem Released.step {l : List KeyPos} (h : Released s t l) (law : s.AskLaw) (fresh : q ∉ l) (announce : Bool) :
    Released s (t.releasePos announce q) (l ++ [q]) := by
  obtain ⟨record, ask, held, selects⟩ := h.fresh law fresh
  have other : ∀ k : KeyPos, k ≠ q → (t.releasePos announce q).table[k] = t.table[k] := fun k e =>
    t.releasePos_other_table announce e
  have notIn : ∀ k ∈ l, k ≠ q := fun k hk e => fresh (e ▸ hk)
  have places := t.releasePos_places announce q
  have moved : ∃ b, Moved t (t.releasePos announce q) q b ∧
      ∀ g, (b.cls = .select g ↔ s.askedInto g q = true) := by
    cases hask : s.askOn q with
    | none =>
      refine ⟨_, (t.releasePos_unasked_moved announce (ask.trans hask)).1, fun g => ?_⟩
      refine ⟨fun e => (by cases e), fun into => ?_⟩
      obtain ⟨i, a, ha, here, -⟩ := State.askedInto_iff.mp into
      exact absurd here (State.askOn_eq_none_iff.mp hask i a ha)
    | some e =>
      obtain ⟨i, a⟩ := e
      obtain ⟨ha, here⟩ := State.askOn_mem hask
      refine ⟨_, (t.releasePos_asked_moved announce (ask.trans hask)).1, fun g => ?_⟩
      refine ⟨fun cls => State.askedInto_iff.mpr ⟨i, a, ha, here, cls⟩, fun into => ?_⟩
      obtain ⟨j, b, hb, at_, cls⟩ := State.askedInto_iff.mp into
      by_cases e : j = i
      · subst e
        rw [ha] at hb
        cases hb
        exact cls
      · exact absurd (at_.trans here.symm) (law.distinct j i b a hb ha e).1
  obtain ⟨b, moved, into⟩ := moved
  refine
    { other := fun k hk => ?other, unasked := fun k hk none => ?unasked, asked := fun k hk i a some => ?asked,
      asks := ?asks, law := State.releasePos_askLaw h.law announce q, held := ?held, one := h.one.of_places places,
      opened := State.releasePos_openLaw h.opened h.one announce q, forms := fun r hr => ?forms,
      selects := fun g k => ?selects, owners := fun g => ?owners, drawn := ?drawn, groups := fun groups => ?groups }
  case other =>
    simp only [List.mem_append, List.mem_singleton, not_or] at hk
    rw [other k hk.2, h.other k hk.1]
  case unasked =>
    obtain hk | hk := List.mem_append.mp hk
    · rw [other k (notIn k hk), h.unasked k hk none]
    · obtain rfl := List.mem_singleton.mp hk
      rw [t.releasePos_record announce k, ask, none, record]
  case asked =>
    obtain hk | hk := List.mem_append.mp hk
    · rw [other k (notIn k hk), h.asked k hk i a some]
    · obtain rfl := List.mem_singleton.mp hk
      rw [t.releasePos_record announce k, ask, some, record]
  case asks =>
    have ends : AsksEnd s (t.releasePos announce q) (fun b => b.pos ∈ l ∨ b.pos = q) (releaseAnswer s) := by
      cases hask : t.askOn q with
      | none =>
        obtain ⟨-, asks, ports⟩ := t.releasePos_unasked_moved announce hask
        exact h.asks.position law (st := .granted) (d := []) (fun _ => ⟨asks, ports⟩) fun i a e => by
          rw [hask] at e
          cases e
      | some e =>
        obtain ⟨-, asks, ports⟩ := t.releasePos_asked_moved announce hask
        refine h.asks.position law (st := .granted) (d := [t.table[q].gen + 2]) (fun e => ?_) fun i a e => ?_
        · rw [hask] at e
          cases e
        · rw [hask] at e
          cases e
          refine ⟨asks, ports, ?_⟩
          have here := (State.askOn_mem hask).2
          rw [releaseAnswer, record]
          subst here
          rfl
    exact ends.next rfl rfl fun j b _ => by simp
  case held =>
    rw [State.releasePos_withdrawn h.one h.forms, h.held, List.map_map]
    refine List.map_congr_left fun r _ => ?_
    simp only [Function.comp]
    by_cases v : r.pos ∈ l
    · have away : r.afterWithdrawal.pos ≠ q := fun e => fresh (e ▸ v)
      rw [if_pos v, if_neg away, if_pos (by simp [v])]
    · rw [if_neg v]
      by_cases e : r.pos = q <;> simp [e, v, fresh]
  case forms =>
    rw [State.releasePos_held] at hr
    obtain hr | ⟨x, hx, -, rfl⟩ := State.withdraw_mem hr
    · exact h.forms r hr
    · exact (h.forms x hx).withdrawn
  case selects =>
    rw [moved.selects g k, h.selects g k, record]
    simp only [List.mem_append, List.mem_singleton]
    constructor
    · rintro ⟨⟨sel, v⟩, e⟩
      exact ⟨sel, fun k => k.elim v fun here => here ▸ e here⟩
    · rintro ⟨sel, v⟩
      exact ⟨⟨sel, fun hk => v (.inl hk)⟩, fun here => here ▸ v (.inr here)⟩
  case owners =>
    rw [moved.group g, Option.map_map, ← h.owners g]
    exact congrArg (fun f => t.groups[g].map f) (funext fun x => SelGroup.moved_owner)
  case drawn =>
    obtain ⟨v, eq, derived, dirty, sent⟩ := t.releasePos_rederives announce q
    refine h.drawn.visited eq derived dirty sent fun k hk => ?_
    refine State.lampFor_follows (by rw [other k (notIn k hk)]) (by rw [other k (notIn k hk)])
      (by rw [other k (notIn k hk)]) (by rw [other k (notIn k hk)]) (State.heldAt_isSome_congr places k) fun g _ => ?_
    rw [moved.selects g k]
    exact ⟨And.left, fun sel => ⟨sel, fun e => absurd e (notIn k hk)⟩⟩
  case groups =>
    obtain ⟨law', regrouped⟩ := h.groups groups
    refine ⟨State.releasePos_groupLaw law' h.law announce q, regrouped.moved moved
      (fun g y cls hy => State.members_pos cls law' hy) (fun g => ?_) fun g => ?_⟩
    · rw [filter_visited, record]
      simp only [decide_eq_true_eq]
    · rw [filter_visited]
      simp only [into g]

end

end Sys2Proof.Machine
end

section
/-! PROOF. RELEASE and LEAVE settled (R24 to R27, R36, R37, R48). -/

namespace Sys2Proof.Machine

section
variable {s t : State} {p : Port} {q : KeyPos}

theorem Answered.lineMode (h : Answered s t) (p : Port) : t.ports[p].lineMode = s.ports[p].lineMode := by
  obtain same | ⟨-, a, answered⟩ := h p
  · rw [same]
  · rw [answered]

theorem State.yieldedReport_congr (law : s.AskLaw) (law' : t.AskLaw) (table : t.table[q] = s.table[q])
    (ask : t.askOn q = s.askOn q) : t.yieldedReport q = s.yieldedReport q := by
  cases hask : s.askOn q with
  | none => rw [State.yieldedReport_none hask, State.yieldedReport_none (ask.trans hask)]
  | some e =>
    rw [State.yieldedReport_some law (i := e.1) (a := e.2) hask,
      State.yieldedReport_some law' (i := e.1) (a := e.2) (ask.trans hask), State.noticeOf_congr table]

theorem State.releasePos_changes (s : State) (announce : Bool) (q : KeyPos) : OnlyChanges s (s.releasePos announce q)
    [.table, .held, .groups, .asks, .queues, .noteLow, .derived, .dirty, .ports] := by
  intro x hx
  cases x
  case table | held | groups | asks | queues | noteLow | derived | dirty | ports => exact absurd (by simp) hx
  all_goals simp [Part.Same]

/-- The notices that a release of `q` owes its owner (R26). -/
def State.releaseReports (s : State) (q : KeyPos) : List Report :=
  s.withdrawnReport q ++ s.deselectedReport q ++ s.yieldedReport q

/-- RELEASE's walk: the positions released, and the notices in their order. -/
theorem release_walk_spec (law : s.AskLaw) (one : s.HeldLaw) (opened : s.OpenLaw) (forms : ∀ r ∈ s.held, HeldForm r)
    {qs : List KeyPos} (nodup : qs.Nodup) (own : ∀ q ∈ qs, s.table[q].owner = some p) :
    Released s (qs.foldl (fun t q => t.releasePos true q) s) qs ∧
    Offered s (qs.foldl (fun t q => t.releasePos true q) s) p (qs.flatMap s.releaseReports) := by
  have walk := walk_induct (P := fun v t => Released s t v ∧ Offered s t p (v.flatMap s.releaseReports) ∧
    t.deskTime = s.deskTime ∧ Answered s t) (effect := fun t q => t.releasePos true q) nodup
    ⟨.refl law one opened forms, .refl s p, rfl, .refl s⟩ fun v q t fresh hq ⟨released, offered, time, answered⟩ => ?_
  · exact ⟨walk.1, walk.2.1⟩
  · obtain ⟨record, ask, held, selects⟩ := released.fresh law fresh
    refine ⟨released.step law fresh true, ?_, by simpa using time, answered.trans (t.releasePos_answered true q)⟩
    have told := State.releasePos_offered (h := p) (q := q) released.law released.opened released.forms
      (by rw [record]; exact own q hq)
    rw [State.withdrawnReport_congr record held, State.deselectedReport_congr record selects,
      State.yieldedReport_congr law released.law record ask] at told
    rw [List.flatMap_append, List.flatMap_singleton]
    exact offered.trans told time (answered.lineMode p)

/-- The binding of an asker whose wish a release fulfils. -/
theorem Binding.take_unbound (g : Byte) (h : Port) (a : AttrSet) : (Binding.unbound (g + 1)).take h a =
    { owner := some h, gen := g + 2, hold := .opened, cls := a.cls, code := a.code, lampMode := a.lampMode,
      lampValue := a.lampValue } := by
  simp only [Binding.take, Binding.unbound, BitVec.add_assoc]
  rfl

theorem Released.asked_record {l : List KeyPos} (h : Released s t l) (law : s.AskLaw) {i : AskId} {a : Ask}
    (ha : s.asks[i] = some a) (hq : a.pos ∈ l) : t.table[a.pos] =
      { owner := some a.asker, gen := s.table[a.pos].gen + 2, hold := .opened, cls := a.set.cls, code := a.set.code,
        lampMode := a.set.lampMode, lampValue := a.set.lampValue } := by
  have ask : s.askOn a.pos = some (i, a) := State.askOn_some ha rfl fun j b hb here => by
    by_contra ne
    exact (law.distinct j i b a hb ha ne).1 here
  rw [h.asked a.pos hq i a ask, Binding.take_unbound]

end

/-- Settles O30: the walk releases each position in its turn, and the port is answered behind it. -/
theorem releaseUnbindsTheRange : Obligations.ReleaseUnbindsTheRange := by
  intro s p f n qs hw range law one opened forms pass
  have nodup := rangeOf_nodup range
  obtain ⟨law, -⟩ := State.yieldLaw_iff.mp law
  have passes : firstFailure (s.ownRefusal p) 0 qs = none :=
    firstFailure_eq_none_iff.mpr fun q hq => State.ownRefusal_passes (pass q hq).1 (pass q hq).2
  obtain ⟨released, offered⟩ := release_walk_spec law one opened forms nodup fun q hq => (pass q hq).1
  obtain ⟨port, ended, kept⟩ := released.asks.answers law hw nofun .ok [0]
  have changes : OnlyChanges s (qs.foldl (fun t q => t.releasePos true q) s)
      [.table, .held, .groups, .asks, .queues, .noteLow, .derived, .dirty, .ports] :=
    .foldl (fun t q => t.releasePos_changes true q) qs s
  generalize hv : qs.foldl (fun t q => t.releasePos true q) s = v at released offered port ended kept changes
  refine ⟨v.answer p .ok [0], by rw [exec_release_working hw, State.rangeRequest_passes range passes, hv], port,
    fun q hq none => ?_, fun q hq i a ha here => ?_, fun q hq => ?_, fun i a ha out => (kept i a ha out).1, ?_, ?_,
    fun groups => ⟨?_, fun g => ?_⟩, changes.answer p .ok [0] _ (fun _ h => h) (by simp)⟩
  · rw [(State.answer_frame _ _ _ _).1]
    exact released.unasked q hq (State.askOn_none none)
  · subst here
    rw [(State.answer_frame _ _ _ _).1]
    exact ⟨released.asked_record law ha hq, ended i a ha hq⟩
  · rw [(State.answer_frame _ _ _ _).1]
    exact released.other q hq
  · rw [(State.answer_frame _ _ _ _).2.1]
    exact released.held
  · exact offered.congr (by simp) (by simp)
  · exact released.drawn.of_same (by simp) (by simp) (by simp) (by simp) (by simp) (by simp)
  · rw [(State.answer_frame _ _ _ _).2.2.2.1]
    exact (released.groups groups).2 g

/-! ## LEAVE -/

section
variable {s t : State} {p : Port}

theorem OnlyChanges.overTable {effect : State → KeyPos → State} {l : List Part} (h : ∀ t q, OnlyChanges t (effect t q) l)
    (s : State) : OnlyChanges s (s.overTable effect) l :=
  .foldl h _ s

theorem execLeave_eq (hw : WorkingOn s p .leave) : exec (.leave p) s =
    .next (((((s.overTable (State.leavePos p)).freeGroupsOf p).setPresence p .present).emptyQueue p).answer p .ok []) := by
  show execLeave p s = _
  simp only [execLeave, State.requestOf_working hw]

/-- LEAVE releases this position. -/
def State.leaves (s : State) (p : Port) (q : KeyPos) : Bool :=
  decide (s.table[q].owner = some p ∧ s.table[q].hold ≠ .fixed)

theorem State.leaves_iff {q : KeyPos} :
    s.leaves p q = true ↔ s.table[q].owner = some p ∧ s.table[q].hold ≠ .fixed := by
  rw [State.leaves, decide_eq_true_eq]

/-- LEAVE's walk: the host's positions that are not FIXED released, and no notice (R36). -/
theorem leave_walk_spec (law : s.AskLaw) (one : s.HeldLaw) (opened : s.OpenLaw) (forms : ∀ r ∈ s.held, HeldForm r)
    (p : Port) :
    Released s (s.overTable (State.leavePos p)) ((List.finRange 1024).filter (s.leaves p)) ∧
    (s.overTable (State.leavePos p)).queues = s.queues ∧ (s.overTable (State.leavePos p)).noteLow = s.noteLow := by
  refine walk_induct (P := fun v t => Released s t (v.filter (s.leaves p)) ∧ t.queues = s.queues ∧ t.noteLow = s.noteLow)
    (effect := State.leavePos p) (List.nodup_finRange 1024) ⟨.refl law one opened forms, rfl, rfl⟩
    fun v q t fresh _ ⟨released, queues, lines⟩ => ?_
  have fresh : q ∉ v.filter (s.leaves p) := fun h => fresh (List.mem_of_mem_filter h)
  obtain ⟨record, -⟩ := released.fresh law fresh
  rw [filter_visited]
  unfold State.leavePos
  rw [record]
  by_cases leaves : s.leaves p q = true
  · have acts := State.leaves_iff.mp leaves
    obtain ⟨same, still⟩ := t.releasePos_silent q
    rw [if_pos acts, if_pos leaves]
    exact ⟨released.step law fresh false, same.trans queues, still.trans lines⟩
  · have stays := fun acts => leaves (State.leaves_iff.mpr acts)
    rw [if_neg stays, if_neg leaves, List.append_nil]
    exact ⟨released, queues, lines⟩

theorem State.leaves_mem {q : KeyPos} : q ∈ (List.finRange 1024).filter (s.leaves p) ↔
    s.table[q].owner = some p ∧ s.table[q].hold ≠ .fixed := by
  simp only [List.mem_filter, List.mem_finRange, true_and, State.leaves, decide_eq_true_eq]

theorem State.leavePos_changes (s : State) (p : Port) (q : KeyPos) : OnlyChanges s (State.leavePos p s q)
    [.table, .held, .groups, .asks, .queues, .noteLow, .derived, .dirty, .ports] := by
  unfold State.leavePos
  split
  · exact s.releasePos_changes false q
  · exact .refl s _

/-- The groups of the leaving host are gone, whatever the walk has done to them (R37). -/
theorem State.freeGroupsOf_group (s : State) (p : Port) (g : GroupId) :
    (s.freeGroupsOf p).groups[g] = (s.groups[g]).bind (fun x => if x.owner = p then none else some x) := by
  simp only [State.freeGroupsOf]
  exact tabulate_getElem 32 _ g.1 g.2

theorem State.freeGroupsOf_gone (s : State) {p : Port} {g : GroupId}
    (h : ∀ x, s.groups[g] = some x → x.owner = p) : (s.freeGroupsOf p).groups[g] = none := by
  rw [s.freeGroupsOf_group p g]
  cases hg : s.groups[g] with
  | none => rfl
  | some x => exact if_pos (h x hg)

theorem State.freeGroupsOf_changes (s : State) (p : Port) : OnlyChanges s (s.freeGroupsOf p) [.groups] := by
  intro x hx
  cases x
  case groups => exact absurd (by simp) hx
  all_goals simp [Part.Same]

/-- The end of LEAVE: the host PRESENT and its queue emptied. -/
theorem State.present_emptied_changes (s : State) (p : Port) :
    OnlyChanges s ((s.setPresence p .present).emptyQueue p) [.presence, .queues, .noteLow, .ports] := by
  intro x hx
  cases x
  case presence | queues | noteLow | ports => exact absurd (by simp) hx
  all_goals simp [Part.Same]

theorem State.present_emptied (s : State) (p : Port) :
    ((s.setPresence p .present).emptyQueue p).queues = upd s.queues p [] ∧
    ((s.setPresence p .present).emptyQueue p).noteLow = upd s.noteLow p false ∧
    ((s.setPresence p .present).emptyQueue p).presence = upd s.presence p .present := by
  simp [State.emptyQueue, State.driveNote, lineDrive_nil]

end

/-- Settles O34: the walk, then the groups, the presence and the queue, and the answer. -/
theorem leaveReleasesSilently : Obligations.LeaveReleasesSilently := by
  intro s p hw law one opened forms
  obtain ⟨law, -⟩ := State.yieldLaw_iff.mp law
  obtain ⟨released, queues, lines⟩ := leave_walk_spec law one opened forms p
  have changes : OnlyChanges s (s.overTable (State.leavePos p))
      [.table, .held, .groups, .asks, .queues, .noteLow, .derived, .dirty, .ports] :=
    .overTable (fun t q => t.leavePos_changes p q) s
  have runs := execLeave_eq hw
  generalize s.overTable (State.leavePos p) = v at released queues lines changes runs
  have freed : ∀ g : GroupId, (∀ x, v.groups[g] = some x → x.owner = p) → (v.freeGroupsOf p).groups[g] = none :=
    fun g h => v.freeGroupsOf_gone h
  have frees := v.freeGroupsOf_changes p
  generalize v.freeGroupsOf p = f at freed frees runs
  have ports : f.ports = v.ports := frees .ports (by simp)
  have ends := f.present_emptied_changes p
  obtain ⟨queue, line, present⟩ := f.present_emptied p
  have port : ∀ k : Port, ((f.setPresence p .present).emptyQueue p).ports[k] =
      if p = k then v.ports[k].emptied else v.ports[k] := fun k => by
    rw [State.emptyQueue_port, State.setPresence_ports, ports]
  generalize (f.setPresence p .present).emptyQueue p = w at ends queue line present port runs
  have tail : OnlyChanges v w [.groups, .presence, .queues, .noteLow, .ports] :=
    frees.trans ends _ (by simp) (by simp)
  have asker : ∀ {i : AskId} {a : Ask}, s.asks[i] = some a → a.asker ≠ p := fun ha => law.asker_ne hw nofun ha
  have own : v.ports[p] = s.ports[p] := released.asks.port p fun j b hb _ => asker hb
  have works : WorkingOn w p .leave := by
    rw [WorkingOn, port p, if_pos rfl, own]
    exact hw
  have table : w.table = v.table := tail .table (by simp)
  have asks : w.asks = v.asks := tail .asks (by simp)
  refine ⟨w.answer p .ok [], runs, ?_, fun q stays => ?_, fun q owner hold none => ?_, fun i a ha holder => ?_,
    fun i a ha holder => ?_, fun g x hx owner => ?_, ?_, ?_, ?_, ?_, fun x hx => ?_⟩
  · rw [State.answer_working works, State.setPort_ports, upd_self, port p, if_pos rfl, own]
    exact ⟨rfl, rfl, rfl⟩
  · rw [(State.answer_frame _ _ _ _).1, table]
    exact released.other q fun h => by
      obtain ⟨owner, hold⟩ := State.leaves_mem.mp h
      exact stays.elim (fun k => k owner) hold
  · rw [(State.answer_frame _ _ _ _).1, table]
    exact released.unasked q (State.leaves_mem.mpr ⟨owner, hold⟩) (State.askOn_none none)
  · obtain ⟨owner, hold⟩ := law.holder i a ha
    have acts : a.pos ∈ (List.finRange 1024).filter (s.leaves p) :=
      State.leaves_mem.mpr ⟨holder ▸ owner, by rw [hold]; exact Hold.noConfusion⟩
    have ne := (asker ha).symm
    rw [(State.answer_frame _ _ _ _).1, table, (State.answer_frame _ _ _ _).2.2.2.2.1, asks, State.answer_other w ne,
      port a.asker, if_neg ne]
    refine ⟨released.asked_record law ha acts, ?_, released.asks.ended i a ha acts⟩
    refine Option.eq_none_iff_forall_ne_some.mpr fun b hb => ?_
    obtain ⟨hb, stays⟩ := (released.asks.asks i b).mp hb
    rw [ha] at hb
    cases hb
    exact stays acts
  · rw [(State.answer_frame _ _ _ _).2.2.2.2.1, asks]
    refine (released.asks.asks i a).mpr ⟨ha, fun h => ?_⟩
    have owner := (State.leaves_mem.mp h).1
    rw [(law.holder i a ha).1] at owner
    exact holder (Option.some.inj owner)
  · have groups : w.groups = f.groups := ends .groups (by simp)
    rw [(State.answer_frame _ _ _ _).2.2.2.1, groups]
    refine freed g fun y hy => ?_
    have same := released.owners g
    rw [hx, hy] at same
    exact (Option.some.inj same).trans owner
  · rw [(State.answer_frame _ _ _ _).2.2.2.2.2.2.1, queue, ← queues]
    exact congrArg (fun x => upd x p []) (frees .queues (by simp))
  · rw [(State.answer_frame _ _ _ _).2.2.2.2.2.2.2.1, line, ← lines]
    exact congrArg (fun x => upd x p false) (frees .noteLow (by simp))
  · rw [(State.answer_frame _ _ _ _).2.2.2.2.2.1, present]
    exact congrArg (fun x => upd x p .present) ((changes.trans frees _ (fun _ h => h) (by simp)) .presence (by simp))
  · have held : w.held = v.held := tail .held (by simp)
    rw [(State.answer_frame _ _ _ _).2.1, held, released.held]
    exact List.map_congr_left fun r _ => if_congr State.leaves_mem rfl rfl
  · exact ((changes.trans tail [.table, .held, .groups, .asks, .presence, .queues, .noteLow, .derived, .dirty, .ports]
      (by simp) (by simp)).answer p .ok [] _ (fun _ h => h) (by simp)) x hx

end Sys2Proof.Machine
end

section
/-! PROOF. CLEAR TABLE (R34, R35, R53, R70, R107). -/

namespace Sys2Proof.Machine

section
variable {s t u : State} {q : KeyPos} {h : Port}

/-! ## Offers to all hosts -/

theorem AllOffered.nil (s : State) : AllOffered s s (fun _ => []) :=
  fun _ => ⟨rfl, rfl⟩

/-- Offers to one host behind offers to all. -/
theorem AllOffered.step {f g : Port → List Report} {l : List Report} (a : AllOffered s t f) (b : Offered t u h l)
    (time : t.deskTime = s.deskTime) (mode : ∀ k : Port, t.ports[k].lineMode = s.ports[k].lineMode)
    (more : ∀ k, g k = f k ++ if k = h then l else []) : AllOffered s u g := by
  intro k
  obtain ⟨queue, line⟩ := a k
  obtain ⟨queues, lines⟩ := b
  rw [more k]
  by_cases e : k = h
  · subst e
    have here : u.queues[k] = (f k ++ l).foldl (offerTo s.deskTime) s.queues[k] := by
      rw [queues, upd_self, queue, time, List.foldl_append]
    rw [if_pos rfl]
    refine ⟨here, ?_⟩
    by_cases none : l = []
    · rw [if_pos none] at lines
      rw [lines, line, none, List.append_nil]
      split
      · rfl
      · rw [here, queue, none, List.append_nil]
    · rw [if_neg none] at lines
      rw [lines, upd_self, mode k, if_neg (by simp [none])]
  · have other : u.queues[k] = t.queues[k] := by rw [queues, upd_ne _ _ _ _ (Ne.symm e)]
    have still : u.noteLow[k] = t.noteLow[k] := by
      rw [lines]
      split
      · rfl
      · rw [upd_ne _ _ _ _ (Ne.symm e)]
    rw [if_neg e, List.append_nil, other, still]
    exact ⟨queue, line⟩

theorem AllOffered.congr {f : Port → List Report} (a : AllOffered s t f) (queues : u.queues = t.queues)
    (lines : u.noteLow = t.noteLow) : AllOffered s u f := by
  intro k
  rw [queues, lines]
  exact a k

/-! ## An ask that ends RESET -/

theorem State.resetReport_none (none : s.askOn q = none) : s.resetReport q = [] := by
  refine flatMap_eq_nil fun i _ => ?_
  cases ha : s.asks[i] with
  | none => rfl
  | some a => exact if_neg (State.askOn_eq_none_iff.mp none i a ha)

theorem State.resetReport_some (law : s.AskLaw) {i : AskId} {a : Ask} (ask : s.askOn q = some (i, a)) :
    s.resetReport q = [s.noticeOf .askClosed q (256 * i.1 + 3) false false] := by
  obtain ⟨ask, here⟩ := State.askOn_mem ask
  refine (flatMap_single (i := i) (List.nodup_finRange 4) (List.mem_finRange i) fun j ne => ?_).trans ?_
  · cases hb : s.asks[j] with
    | none => rfl
    | some b => exact if_neg fun e => (law.distinct j i b a hb ask ne).1 (e.trans here.symm)
  · simp only [ask]
    exact if_pos here

theorem State.resetAskOn_none (none : s.askOn q = none) (b : Binding) : s.resetAskOn q b = s := by
  simp only [State.resetAskOn, none]

theorem State.resetAskOn_some {i : AskId} {a : Ask} (ask : s.askOn q = some (i, a)) (b : Binding) :
    (s.resetAskOn q b).asks = upd s.asks i none ∧ (s.resetAskOn q b).ports = (s.answer a.asker .reset []).ports ∧
    Offered s (s.resetAskOn q b) a.holder [yieldReport .askClosed a.pos b (extraPair i.1 3)] := by
  have eq : s.resetAskOn q b = s.closeAsk i a .reset .reset b := by simp only [State.resetAskOn, ask]
  rw [eq]
  refine ⟨?_, ?_, ?_⟩
  · rw [← s.endAsk_asks i a .reset]
    simp [State.closeAsk]
  · rw [← s.endAsk_ports i a .reset]
    simp [State.closeAsk]
  · have told := State.offer_offered (s.endAsk i a .reset) a.holder
      (yieldReport .askClosed a.pos b (extraPair i.1 3))
    exact told.of_same (by simp) (by simp) (by simp)
      (State.answer_settings (s.removeAsk (some i)) a.asker a.holder .reset []).1.symm

/-! ## One position cleared -/

/-- The stages of CLEAR TABLE at an owned position before its ask ends. -/
def State.stripped (s : State) (q : KeyPos) : State :=
  (s.withdraw true q).unbind q

theorem State.clearPos_free (free : s.table[q].owner = none) : s.clearPos q = s := by
  simp only [State.clearPos, free]

theorem State.clearPos_owned (owned : s.table[q].owner = some h) :
    s.clearPos q = ((s.stripped q).resetAskOn q s.table[q]).rederive q := by
  simp only [State.clearPos, owned]
  rfl

theorem State.stripped_askOn (s : State) (q : KeyPos) : (s.stripped q).askOn q = s.askOn q := by
  simp only [State.askOn, State.stripped, State.unbind_frame, State.withdraw_frame]

theorem State.stripped_ports (s : State) (q : KeyPos) : (s.stripped q).ports = s.ports := by
  simp [State.stripped]

/-- What CLEAR TABLE does to the asks and the ports at an owned position. -/
theorem State.clearPos_ask (owned : s.table[q].owner = some h) :
    (s.askOn q = none → (s.clearPos q).asks = s.asks ∧ (s.clearPos q).ports = s.ports) ∧
    (∀ i a, s.askOn q = some (i, a) → (s.clearPos q).asks = upd s.asks i none ∧
      (s.clearPos q).ports = (s.answer a.asker .reset []).ports) := by
  rw [State.clearPos_owned owned]
  refine ⟨fun none => ?_, fun i a ask => ?_⟩
  · rw [State.resetAskOn_none ((s.stripped_askOn q).trans none)]
    simp [State.stripped]
  · obtain ⟨asks, ports, -⟩ := State.resetAskOn_some ((s.stripped_askOn q).trans ask) s.table[q]
    rw [(State.rederive_frame _ _).2.2.2.2.1, asks, (State.rederive_frame _ _).2.2.2.2.2.2.2.2.2.2.1, ports]
    exact ⟨by simp [State.stripped], State.answer_ports_congr (s.stripped_ports q) _ _ _⟩

/-- The notices of CLEAR TABLE at an owned position, in their order (R35, R53). -/
theorem State.clearPos_offered (holder : ∀ i a, s.askOn q = some (i, a) → a.holder = h) (opened : s.OpenLaw)
    (forms : ∀ r ∈ s.held, HeldForm r) (owned : s.table[q].owner = some h) {l : List Report}
    (none : s.askOn q = none → l = [])
    (some : ∀ i a, s.askOn q = some (i, a) → l = [s.noticeOf .askClosed q (256 * i.1 + 3) false false]) :
    Offered s (s.clearPos q) h (s.withdrawnReport q ++ l) := by
  have first : Offered s (s.withdraw true q) h (s.withdrawnReport q) := State.withdraw_offered opened forms owned
  have stripped : Offered s (s.stripped q) h (s.withdrawnReport q) :=
    first.congr (by simp [State.stripped]) (by simp [State.stripped])
  rw [State.clearPos_owned owned]
  cases ask : s.askOn q with
  | none =>
    rw [State.resetAskOn_none ((s.stripped_askOn q).trans ask), none ask, List.append_nil]
    exact stripped.congr (by simp) (by simp)
  | some e =>
    obtain ⟨i, a⟩ := e
    obtain ⟨-, -, told⟩ := State.resetAskOn_some ((s.stripped_askOn q).trans ask) s.table[q]
    have here := (State.askOn_mem ask).2
    rw [some i a ask]
    rw [holder i a ask, here] at told
    exact (stripped.trans told (by simp [State.stripped]) (by rw [s.stripped_ports q])).congr (by simp) (by simp)

end

/-! ## The positions cleared so far -/

/-- What an owned binding becomes (R11, R12). -/
def Binding.cleared (b : Binding) : Binding :=
  if b.owner = none then b else Binding.unbound (b.gen + 1)

/-- From `s` to `t` the positions of `l` have been cleared, in their order. -/
structure Cleared (s t : State) (l : List KeyPos) : Prop where
  table : Rewritten s t Binding.cleared l
  derived : ∀ k : KeyPos, t.derived[k] = if k ∈ l ∧ s.table[k].owner ≠ none then .off else s.derived[k]
  asks : AsksEnd s t (fun a => a.pos ∈ l) (fun _ => ⟨.reset, 0x20, []⟩)
  held : t.held = s.held.map (fun r => if r.pos ∈ l ∧ s.table[r.pos].owner ≠ none then r.afterWithdrawal else r)
  one : t.HeldLaw
  opened : t.OpenLaw
  forms : ∀ r ∈ t.held, HeldForm r
  time : t.deskTime = s.deskTime
  answered : Answered s t
  offered : AllOffered s t (fun h => l.flatMap (fun q =>
    if s.table[q].owner = some h then s.withdrawnReport q ++ s.resetReport q else []))

section
variable {s t : State} {q : KeyPos}

theorem Cleared.refl (one : s.HeldLaw) (opened : s.OpenLaw) (forms : ∀ r ∈ s.held, HeldForm r) : Cleared s s [] where
  table := .nil s _
  derived k := by simp
  asks := .refl s _ fun _ _ _ => List.not_mem_nil
  held := by simp
  one := one
  opened := opened
  forms := forms
  time := rfl
  answered := .refl s
  offered := AllOffered.nil s

theorem Cleared.step {l : List KeyPos} (c : Cleared s t l) (law : s.AskLaw) (fresh : q ∉ l) :
    Cleared s (t.clearPos q) (l ++ [q]) := by
  have record : t.table[q] = s.table[q] := by rw [c.table q, if_neg fresh]
  have ask : t.askOn q = s.askOn q := c.asks.askOn law fun j b _ e gone => fresh (e ▸ gone)
  have table : (t.clearPos q).table = upd t.table q t.table[q].cleared := by
    rw [t.clearPos_table q]
    unfold Binding.cleared
    split
    · exact (upd_same _ _).symm
    · rfl
  have places := t.clearPos_places q
  cases owner : s.table[q].owner with
  | none =>
    have idle : t.clearPos q = t := State.clearPos_free (by rw [record, owner])
    have unmarked : ∀ k : KeyPos, (k ∈ l ++ [q] ∧ s.table[k].owner ≠ none) ↔ (k ∈ l ∧ s.table[k].owner ≠ none) := by
      intro k
      simp only [List.mem_append, List.mem_singleton]
      refine ⟨fun ⟨v, o⟩ => ⟨v.resolve_right fun e => ?_, o⟩, fun ⟨v, o⟩ => ⟨.inl v, o⟩⟩
      subst e
      exact o owner
    refine
      { table := c.table.next fresh table, derived := fun k => ?_, asks := ?_, held := ?_, one := idle.symm ▸ c.one,
        opened := idle.symm ▸ c.opened, forms := idle.symm ▸ c.forms, time := idle.symm ▸ c.time,
        answered := idle.symm ▸ c.answered, offered := ?_ }
    · rw [idle, c.derived k]
      exact if_congr (unmarked k).symm rfl rfl
    · rw [idle]
      refine c.asks.next rfl rfl fun j b hb => ?_
      simp only [List.mem_append, List.mem_singleton]
      refine ⟨fun v => v.resolve_right fun e => ?_, .inl⟩
      have := (law.holder j b hb).1
      subst e
      rw [owner] at this
      cases this
    · rw [idle, c.held]
      exact List.map_congr_left fun r _ => if_congr (unmarked r.pos).symm rfl rfl
    · rw [idle]
      intro h
      have none : ¬ s.table[q].owner = some h := by rw [owner]; exact (Option.some_ne_none h).symm
      show _ ∧ _
      simp only [List.flatMap_append, List.flatMap_singleton, if_neg none, List.append_nil]
      exact c.offered h
  | some h =>
    have owned : t.table[q].owner = some h := by rw [record, owner]
    have has : s.table[q].owner ≠ none := by rw [owner]; exact Option.some_ne_none h
    have withdrawn : (t.clearPos q).held = t.held.map (fun r => if r.pos = q then r.afterWithdrawal else r) := by
      rw [t.clearPos_held q, if_neg (by rw [record]; exact has), State.withdraw_held c.one c.forms]
    obtain ⟨still, ends⟩ := State.clearPos_ask owned
    refine
      { table := c.table.next fresh table, derived := fun k => ?_, asks := ?_, held := ?_, one := c.one.of_places places,
        opened := State.clearPos_openLaw c.opened c.one q, forms := fun r hr => ?_, time := by simpa using c.time,
        answered := c.answered.trans (t.clearPos_answered q), offered := ?_ }
    · have drawn : (t.clearPos q).derived = upd t.derived q .off := by
        rw [State.clearPos_owned owned]
        have lamp : ((t.stripped q).resetAskOn q t.table[q]).lampFor q = .off := by
          refine State.lampFor_unowned ?_
          rw [(State.resetAskOn_frame _ _ _).1, State.stripped, State.unbind_table, upd_self]
          rfl
        rw [State.rederive, lamp]
        simp [State.stripped]
      rw [drawn]
      by_cases e : q = k
      · subst e
        rw [upd_self, if_pos ⟨by simp, has⟩]
      · rw [upd_ne _ _ _ _ e, c.derived k]
        simp only [List.mem_append, List.mem_singleton, Ne.symm e, or_false]
    · have all : AsksEnd s (t.clearPos q) (fun b => b.pos ∈ l ∨ b.pos = q) (fun _ => ⟨.reset, 0x20, []⟩) :=
        c.asks.position law (st := .reset) (d := []) still fun i a ask => ⟨(ends i a ask).1, (ends i a ask).2, rfl⟩
      exact all.next rfl rfl fun j b _ => by simp
    · rw [withdrawn, c.held, List.map_map]
      refine List.map_congr_left fun r _ => ?_
      simp only [Function.comp]
      by_cases v : r.pos ∈ l ∧ s.table[r.pos].owner ≠ none
      · have away : r.afterWithdrawal.pos ≠ q := fun e => fresh (e ▸ v.1)
        rw [if_pos v, if_neg away, if_pos ⟨by simp [v.1], v.2⟩]
      · rw [if_neg v]
        by_cases e : r.pos = q
        · rw [if_pos e, if_pos ⟨by simp [e], by simp only [e]; exact has⟩]
        · rw [if_neg e]
          simp only [List.mem_append, List.mem_singleton, e, or_false, if_neg v]
    · rw [withdrawn] at hr
      obtain ⟨x, hx, rfl⟩ := List.mem_map.mp hr
      split
      · exact (c.forms x hx).withdrawn
      · exact c.forms x hx
    · have heldAt : t.heldAt q = s.heldAt q := by
        refine State.heldAt_map_other (fun r => ?_) c.held q fun r e => if_neg fun v => fresh (e ▸ v.1)
        split <;> rfl
      have told := State.clearPos_offered (l := s.resetReport q) (h := h) (q := q) (s := t) (fun i a hask => ?_) c.opened
        c.forms owned (fun none => State.resetReport_none (ask.symm.trans none)) fun i a hask => ?_
      · rw [State.withdrawnReport_congr record heldAt] at told
        refine c.offered.step told c.time c.answered.lineMode fun k => ?_
        rw [List.flatMap_append, List.flatMap_singleton, owner]
        simp only [Option.some.injEq, @eq_comm _ h k]
      · obtain ⟨entry, here⟩ := State.askOn_mem (ask.symm.trans hask)
        have := (law.holder i a entry).1
        subst here
        rw [owner] at this
        exact (Option.some.inj this).symm
      · rw [State.resetReport_some law (ask.symm.trans hask), State.noticeOf_congr record]

/-- CLEAR TABLE's walk. -/
theorem clear_walk_spec (law : s.AskLaw) (one : s.HeldLaw) (opened : s.OpenLaw) (forms : ∀ r ∈ s.held, HeldForm r) :
    Cleared s (s.overTable State.clearPos) (List.finRange 1024) :=
  walk_induct (P := fun v t => Cleared s t v) (List.nodup_finRange 1024) (.refl one opened forms) fun _ _ _ fresh _ c => c.step law fresh

theorem State.clearPos_changes (s : State) (q : KeyPos) : OnlyChanges s (s.clearPos q)
    [.table, .held, .asks, .queues, .noteLow, .derived, .dirty, .ports] := by
  intro x hx
  cases x
  case table | held | asks | queues | noteLow | derived | dirty | ports => exact absurd (by simp) hx
  all_goals simp [Part.Same]

theorem State.freeGroups_changes (s : State) : OnlyChanges s s.freeGroups [.groups] := by
  intro x hx
  cases x
  case groups => exact absurd (by simp) hx
  all_goals simp [Part.Same]

theorem State.freeGroups_group (s : State) (g : GroupId) : s.freeGroups.groups[g] = none := by
  simp only [State.freeGroups]
  exact Vector.getElem_replicate _

theorem execClearTable_eq (hw : WorkingOn s 0 .clearTable) :
    exec .clearTable s = .next (((s.overTable State.clearPos).freeGroups).answer 0 .ok []) := by
  show execClearTable s = _
  simp only [execClearTable, State.requestOf_working hw]

end

/-- Settles O33: every position is cleared in its turn, then the groups are FREE. -/
theorem clearTableUnbindsAll : Obligations.ClearTableUnbindsAll := by
  intro s hw law one opened forms
  obtain ⟨law, -⟩ := State.yieldLaw_iff.mp law
  have cleared := clear_walk_spec law one opened forms
  have changes : OnlyChanges s (s.overTable State.clearPos)
      [.table, .held, .asks, .queues, .noteLow, .derived, .dirty, .ports] := .overTable State.clearPos_changes s
  have runs := execClearTable_eq hw
  have every : ∀ q : KeyPos, q ∈ List.finRange 1024 := List.mem_finRange
  generalize List.finRange 1024 = l at cleared every
  generalize s.overTable State.clearPos = v at cleared changes runs
  have free := v.freeGroups_group
  have frees := v.freeGroups_changes
  generalize v.freeGroups = w at free frees runs
  have whole := cleared.asks.next (u := w) (frees .asks (by simp)) (frees .ports (by simp)) fun _ _ _ => Iff.rfl
  obtain ⟨port, ended, -⟩ := whole.answers law hw nofun .ok []
  have table : w.table = v.table := frees .table (by simp)
  have derived : w.derived = v.derived := frees .derived (by simp)
  refine ⟨w.answer 0 .ok [], runs, port, fun q none => ?_, fun q owned => ?_, fun g => ?_, fun i => ?_,
    fun i a ha => (ended i a ha (every a.pos)).2, ?_, ?_,
    (changes.trans frees [.table, .held, .groups, .asks, .queues, .noteLow, .derived, .dirty, .ports] (by simp)
      (by simp)).answer 0 .ok [] _ (fun _ h => h) (by simp)⟩
  · rw [(State.answer_frame _ _ _ _).1, table, (State.answer_frame _ _ _ _).2.2.2.2.2.2.2.2.1, derived,
      cleared.table q, cleared.derived q, if_pos (every q), if_neg fun h => h.2 none]
    exact ⟨if_pos none, rfl⟩
  · rw [(State.answer_frame _ _ _ _).1, table, (State.answer_frame _ _ _ _).2.2.2.2.2.2.2.2.1, derived,
      cleared.table q, cleared.derived q, if_pos (every q), if_pos ⟨every q, owned⟩]
    exact ⟨if_neg owned, rfl⟩
  · rw [(State.answer_frame _ _ _ _).2.2.2.1]
    exact free g
  · refine Option.eq_none_iff_forall_ne_some.mpr fun a ha => ?_
    rw [(State.answer_frame _ _ _ _).2.2.2.2.1] at ha
    exact ((whole.asks i a).mp ha).2 (every a.pos)
  · have held : w.held = v.held := frees .held (by simp)
    rw [(State.answer_frame _ _ _ _).2.1, held, cleared.held]
    refine List.map_congr_left fun r hr => ?_
    split
    · rfl
    next out =>
      refine (HeldRecord.afterWithdrawal_self (forms r hr) ?_).symm
      refine Option.eq_none_iff_forall_ne_some.mpr fun o ho => out ⟨every r.pos, ?_⟩
      rw [(opened r hr o ho).1]
      exact Option.some_ne_none _
  · have queues : (w.answer 0 .ok []).queues = v.queues := by
      rw [(State.answer_frame _ _ _ _).2.2.2.2.2.2.1]
      exact frees .queues (by simp)
    have lines : (w.answer 0 .ok []).noteLow = v.noteLow := by
      rw [(State.answer_frame _ _ _ _).2.2.2.2.2.2.2.1]
      exact frees .noteLow (by simp)
    exact cleared.offered.congr queues lines

end Sys2Proof.Machine
end

section
/-! PROOF. DESK RESET part by part (R17, R53, R57, R61, R63, R158, R186). -/

namespace Sys2Proof.Machine

section
variable {s t : State} {q : KeyPos}

/-! ## The bindings and the asks -/

/-- DESK RESET at a position that loses its owner ends its ask RESET (R17, R53). -/
theorem State.resetPos_ask (owned : s.table[q].owner ≠ none) (loose : s.table[q].hold ≠ .fixed) :
    (s.askOn q = none → (s.resetPos q).asks = s.asks ∧ (s.resetPos q).ports = s.ports) ∧
    (∀ i a, s.askOn q = some (i, a) → (s.resetPos q).asks = upd s.asks i none ∧
      (s.resetPos q).ports = (s.answer a.asker .reset []).ports) := by
  rw [State.resetPos_loose s owned loose]
  have same : (s.unbind q).askOn q = s.askOn q := by simp only [State.askOn, State.unbind_frame]
  refine ⟨fun none => ?_, fun i a ask => ?_⟩
  · rw [State.resetAskOn_none (same.trans none)]
    simp
  · obtain ⟨asks, ports, -⟩ := State.resetAskOn_some (same.trans ask) s.table[q]
    rw [asks, ports]
    exact ⟨by simp, State.answer_ports_congr (by simp) _ _ _⟩

/-- A position that DESK RESET leaves to its owner, or that has none, has its asks as before. -/
theorem State.resetPos_idle (h : s.table[q].owner = none ∨ s.table[q].hold = .fixed) :
    (s.resetPos q).asks = s.asks ∧ (s.resetPos q).ports = s.ports := by
  unfold State.resetPos
  extract_lets b
  split
  next => exact ⟨rfl, rfl⟩
  next k owned =>
    have owned : s.table[q].owner = some k := owned
    have fixed : b.hold = .fixed := h.resolve_left (by rw [owned]; exact Option.some_ne_none k)
    rw [if_pos fixed]
    split <;> simp

/-- DESK RESET's walk: every binding reset, every ask on the positions visited ended. -/
theorem reset_walk_spec (law : s.AskLaw) :
    Rewritten s (s.overTable State.resetPos) Binding.deskReset (List.finRange 1024) ∧
    AsksEnd s (s.overTable State.resetPos) (fun a => a.pos ∈ List.finRange 1024) (fun _ => ⟨.reset, 0x20, []⟩) := by
  refine walk_induct (P := fun v t => Rewritten s t Binding.deskReset v ∧
    AsksEnd s t (fun a => a.pos ∈ v) (fun _ => ⟨.reset, 0x20, []⟩)) (List.nodup_finRange 1024)
    ⟨.nil s _, .refl s _ fun _ _ _ => List.not_mem_nil⟩ fun v q t fresh hq ⟨table, asks⟩ => ⟨?_, ?_⟩
  · exact table.next fresh (State.resetPos_table t q)
  · clear hq
    have record : t.table[q] = s.table[q] := by rw [table q, if_neg fresh]
    by_cases idle : t.table[q].owner = none ∨ t.table[q].hold = .fixed
    · obtain ⟨same, ports⟩ := State.resetPos_idle idle
      refine asks.next same ports fun j b hb => ?_
      simp only [List.mem_append, List.mem_singleton]
      refine ⟨fun h => h.resolve_right fun e => ?_, .inl⟩
      obtain ⟨owner, hold⟩ := law.holder j b hb
      subst e
      rw [record, owner, hold] at idle
      exact idle.elim (fun h => by cases h) fun h => by cases h
    · obtain ⟨owned, loose⟩ := not_or.mp idle
      obtain ⟨still, ends⟩ := State.resetPos_ask owned loose
      have all : AsksEnd s (t.resetPos q) (fun b => b.pos ∈ v ∨ b.pos = q) (fun _ => ⟨.reset, 0x20, []⟩) :=
        asks.position law (st := .reset) (d := []) still fun i a ask => ⟨(ends i a ask).1, (ends i a ask).2, rfl⟩
      exact all.next rfl rfl fun j b _ => by simp

theorem State.resetRecords_parts (s : State) : s.resetRecords.asks = s.asks ∧ s.resetRecords.profiles = defaultProfiles ∧
    ∀ g : GroupId, s.resetRecords.groups[g] = none := by
  simp only [State.resetRecords]
  exact ⟨trivial, trivial, fun g => Vector.getElem_replicate _⟩

theorem State.resetLamps_parts (s : State) : s.resetLamps.asks = s.asks ∧ s.resetLamps.profiles = s.profiles ∧
    s.resetLamps.groups = s.groups := by
  simp only [State.resetLamps]
  exact ⟨trivial, trivial, trivial⟩

theorem State.resetLamps_lamps (s : State) : (∀ q : KeyPos, s.resetLamps.derived[q] = s.lampFor q) ∧
    (∀ q : KeyPos, s.resetLamps.sent[q] = none) ∧ ∀ b : Fin 128, s.resetLamps.dirty[b] = true := by
  simp only [State.resetLamps]
  exact ⟨fun q => tabulate_getElem 1024 _ q.1 q.2, fun q => Vector.getElem_replicate _, fun b => Vector.getElem_replicate _⟩

theorem State.deskReset_asks (s : State) : s.deskReset.asks = (s.overTable State.resetPos).asks := by
  rw [State.deskReset_keeps s State.asks (by simp) (by simp), (State.resetLamps_parts _).1, (State.resetRecords_parts _).1]

theorem State.deskReset_profiles (s : State) : s.deskReset.profiles = defaultProfiles := by
  rw [State.deskReset_keeps s State.profiles (by simp) (by simp), (State.resetLamps_parts _).2.1,
    (State.resetRecords_parts _).2.1]

theorem State.deskReset_group (s : State) (g : GroupId) : s.deskReset.groups[g] = none := by
  rw [State.deskReset_keeps s State.groups (by simp) (by simp), (State.resetLamps_parts _).2.2]
  exact (State.resetRecords_parts _).2.2 g

theorem State.deskReset_lamps (s : State) : (∀ q : KeyPos, s.deskReset.derived[q] = s.deskReset.lampFor q) ∧
    (∀ q : KeyPos, s.deskReset.sent[q] = none) ∧ ∀ b : Fin 128, s.deskReset.dirty[b] = true := by
  have derived := State.deskReset_keeps s State.derived (by simp) (by simp)
  have table := State.deskReset_keeps s State.table (by simp) (by simp)
  have groups := State.deskReset_keeps s State.groups (by simp) (by simp)
  have held := State.deskReset_keeps s State.held (by simp) (by simp)
  have sent := State.deskReset_keeps s State.sent (by simp) (by simp)
  have dirty := State.deskReset_keeps s State.dirty (by simp) (by simp)
  generalize s.deskReset = t at derived table groups held sent dirty ⊢
  generalize (s.overTable State.resetPos).resetRecords = u at derived table groups held sent dirty
  obtain ⟨drawn, unknown, flags⟩ := u.resetLamps_lamps
  rw [derived, sent, dirty]
  rw [(State.resetLamps_parts u).2.2] at groups
  rw [u.resetLamps_table] at table
  rw [u.resetLamps_held] at held
  exact ⟨fun q => (drawn q).trans (State.lampFor_congr q (by rw [table]) groups held).symm, unknown, flags⟩

/-- What DESK RESET may change. -/
def resetParts : List Part :=
  [.table, .asks, .presence, .queues, .noteLow, .ports, .held, .groups, .profiles, .derived, .sent, .dirty, .links]

theorem State.resetPos_changes (s : State) (q : KeyPos) : OnlyChanges s (s.resetPos q) resetParts := by
  intro x hx
  cases x
  case deskTime | mask | pollInterval | yieldWait | resetLow | pending => simp [Part.Same]
  all_goals exact absurd (by simp [resetParts]) hx

theorem State.resetRecords_changes (s : State) : OnlyChanges s s.resetRecords resetParts := by
  intro x hx
  cases x
  case deskTime | mask | pollInterval | yieldWait | resetLow | pending => simp only [Part.Same, State.resetRecords]
  all_goals exact absurd (by simp [resetParts]) hx

theorem State.resetLamps_changes (s : State) : OnlyChanges s s.resetLamps resetParts := by
  intro x hx
  cases x
  case deskTime | mask | pollInterval | yieldWait | resetLow | pending => simp only [Part.Same, State.resetLamps]
  all_goals exact absurd (by simp [resetParts]) hx

theorem State.resetSession_changes (s : State) (n : LinkId) : OnlyChanges s (s.resetSession n) resetParts := by
  intro x hx
  cases x
  case deskTime | mask | pollInterval | yieldWait | resetLow | pending => simp [Part.Same]
  all_goals exact absurd (by simp [resetParts]) hx

theorem State.emptyQueue_changes (s : State) (p : Port) : OnlyChanges s (s.emptyQueue p) resetParts := by
  intro x hx
  cases x
  case deskTime | mask | pollInterval | yieldWait | resetLow | pending => simp [Part.Same]
  all_goals exact absurd (by simp [resetParts]) hx

theorem State.deskReset_changes (s : State) : OnlyChanges s s.deskReset resetParts := by
  have then_ : ∀ {t u : State}, OnlyChanges s t resetParts → OnlyChanges t u resetParts → OnlyChanges s u resetParts :=
    fun h k => h.trans k _ (fun _ h => h) fun _ h => h
  have bindings : OnlyChanges s (s.overTable State.resetPos) resetParts := .overTable State.resetPos_changes s
  have records := then_ (then_ bindings (State.resetRecords_changes _)) (State.resetLamps_changes _)
  unfold State.deskReset
  generalize ((s.overTable State.resetPos).resetRecords).resetLamps = t at records
  exact then_ (then_ records (.foldl State.resetSession_changes _ t)) (.foldl State.emptyQueue_changes _ _)

theorem execDeskReset_eq (hw : WorkingOn s 0 .deskReset) :
    exec .deskReset s = .next (s.deskReset.answer 0 .ok []) := by
  show execDeskReset s = _
  simp only [execDeskReset, State.requestOf_working hw]

/-- A session that was UP passes to SYNCING; every other session stays as it is (R63, R158). -/
theorem LinkEngine.resynced_up {l : LinkEngine} {i : Identity} {last : OrderKind} {start : Option Time}
    (up : l.session = .up i last start) :
    l.resynced.session = .syncing .reset i last ∧ l.resynced.bitL = l.bitL ∧ l.resynced.failures = l.failures ∧
    l.resynced.edges = l.edges.map (fun e => { e with live := false }) ∧
    (l.inFlight = none → l.resynced.inFlight = some ⟨.image, l.failures + 1⟩) ∧
    (∀ x, l.inFlight = some x → l.resynced.inFlight = some x) := by
  cases flight : l.inFlight with
  | none =>
    have eq : l.resynced = { l.leaveUp (.syncing .reset i last) with
        inFlight := some ⟨.image, l.failures + 1⟩, lck := .clocking } := by
      simp [LinkEngine.resynced, up, flight]
    rw [eq]
    exact ⟨rfl, rfl, rfl, rfl, fun _ => rfl, fun x h => by cases h⟩
  | some y =>
    have eq : l.resynced = l.leaveUp (.syncing .reset i last) := by
      simp [LinkEngine.resynced, up, flight]
    rw [eq]
    exact ⟨rfl, rfl, rfl, rfl, fun h => (by cases h), fun x h => by rw [← h]; exact flight⟩

theorem LinkEngine.resynced_other {l : LinkEngine} (other : ∀ i last start, l.session ≠ .up i last start) :
    l.resynced = l := by
  cases hs : l.session with
  | up i last start => exact absurd hs (other i last start)
  | off | probing d | syncing c i last | holdoff d => simp only [LinkEngine.resynced, hs]

/-- What DESK RESET has done, part by part. -/
structure WasReset (s t : State) : Prop where
  binding : ∀ q : KeyPos, t.table[q] = s.table[q].deskReset
  asks : ∀ i : AskId, t.asks[i] = none
  asker : ∀ (i : AskId) a, s.asks[i] = some a → t.ports[a.asker].state = .answered ⟨.reset, 0x20, []⟩
  port : ∀ p : Port, ∃ u : PortUnit, (u = s.ports[p] ∨ ∃ a, u = { s.ports[p] with state := .answered a }) ∧
    t.ports[p] = (u.deskReset s.deskTime).emptied
  own : t.ports[(0 : Port)] = (s.ports[(0 : Port)].deskReset s.deskTime).emptied
  host : ∀ p : Port, t.presence[p] = .present ∧ t.queues[p] = [] ∧ t.noteLow[p] = false
  held : t.held = []
  group : ∀ g : GroupId, t.groups[g] = none
  profiles : t.profiles = defaultProfiles
  lamps : (∀ q : KeyPos, t.derived[q] = t.lampFor q) ∧ (∀ q : KeyPos, t.sent[q] = none) ∧ ∀ b : Fin 128, t.dirty[b] = true
  link : ∀ n : LinkId, t.links[n] = s.links[n].resynced
  changes : OnlyChanges s t resetParts

/-- The walk's askers were answered, and every other port stands (R53). -/
theorem AsksEnd.units {gone : Ask → Prop} {f : Ask → Answer} (h : AsksEnd s t gone f) (p : Port) :
    t.ports[p] = s.ports[p] ∨ ∃ a, t.ports[p] = { s.ports[p] with state := .answered a } := by
  by_cases asker : ∃ (j : AskId) (b : Ask), s.asks[j] = some b ∧ gone b ∧ b.asker = p
  · obtain ⟨j, b, hb, g, rfl⟩ := asker
    exact .inr ⟨_, h.ended j b hb g⟩
  · exact .inl (h.port p fun j b hb g e => asker ⟨j, b, hb, g, e⟩)

theorem State.deskReset_wasReset (law : s.AskLaw) (hw : WorkingOn s 0 .deskReset) : WasReset s s.deskReset := by
  obtain ⟨table, asks⟩ := reset_walk_spec law
  have every : ∀ q : KeyPos, q ∈ List.finRange 1024 := List.mem_finRange
  exact {
    binding := fun q => by rw [s.deskReset_table, table q, if_pos (every q)]
    asks := fun i => by
      rw [s.deskReset_asks]
      exact Option.eq_none_iff_forall_ne_some.mpr fun a ha => ((asks.asks i a).mp ha).2 (every a.pos)
    asker := fun i a ha => by
      rw [s.deskReset_port a.asker, asks.ended i a ha (every a.pos)]
      rfl
    port := fun p => ⟨_, asks.units p, s.deskReset_port p⟩
    own := by rw [s.deskReset_port 0, asks.port 0 fun j b hb _ => law.asker_ne hw nofun hb]
    host := fun p => ⟨s.deskReset_presence p, s.deskReset_queue p⟩
    held := s.deskReset_held
    group := s.deskReset_group
    profiles := s.deskReset_profiles
    lamps := s.deskReset_lamps
    link := s.deskReset_link
    changes := s.deskReset_changes }

/-- The port of the supervisor after the reset and its answer. -/
theorem WasReset.answered (r : WasReset s t) (hw : WorkingOn s 0 .deskReset) :
    (t.answer 0 .ok []).ports[(0 : Port)] = { t.ports[(0 : Port)] with state := .answered ⟨.ok, 0x72, []⟩ } := by
  have working : WorkingOn t 0 .deskReset := by
    rw [WorkingOn, r.own]
    exact hw
  rw [State.answer_working working, State.setPort_ports, upd_self]
  rfl

/-- The lapse timer of a port that has been reset (R57, R61). -/
theorem PortUnit.deskReset_timer (u : PortUnit) (now : Time) (time : u.lapseTime ≠ 0) (high : u.csLow = false) :
    (u.deskReset now).emptied.lapseStart = some now :=
  (if_neg time).trans (if_neg (Bool.eq_false_iff.mp high))

/-- A host after DESK RESET and the supervisor's answer (R57, R61, R123). -/
theorem WasReset.hosts (r : WasReset s t) (p : Port) :
    let u := t.answer 0 .ok []
    u.presence[p] = .present ∧ u.queues[p] = [] ∧ u.noteLow[p] = false ∧
      u.ports[p].lineMode = s.ports[p].lineMode ∧ u.ports[p].lapseTime = s.ports[p].lapseTime ∧
      u.ports[p].lapseFlag = s.ports[p].lapseFlag ∧
      (s.ports[p].lapseTime ≠ 0 → s.ports[p].csLow = false → u.ports[p].lapseStart = some s.deskTime) := by
  intro u
  obtain ⟨line, lapse, start, flag, -⟩ := State.answer_settings t 0 p .ok []
  obtain ⟨presence, queue, low⟩ := r.host p
  obtain ⟨v, same, unit⟩ := r.port p
  rw [unit] at line lapse start flag
  have settings : v.lineMode = s.ports[p].lineMode ∧ v.lapseTime = s.ports[p].lapseTime ∧
      v.lapseFlag = s.ports[p].lapseFlag ∧ v.csLow = s.ports[p].csLow := by
    obtain rfl | ⟨a, rfl⟩ := same <;> exact ⟨rfl, rfl, rfl, rfl⟩
  obtain ⟨mode, time, shown, select⟩ := settings
  refine ⟨?_, ?_, ?_, line.trans mode, lapse.trans time, flag.trans shown, fun nonzero high => ?_⟩
  · exact (congrArg (fun x : Vector Presence 4 => x[p]) (State.answer_frame _ _ _ _).2.2.2.2.2.1).trans presence
  · exact (congrArg (fun x : Vector (List Notice) 4 => x[p]) (State.answer_frame _ _ _ _).2.2.2.2.2.2.1).trans queue
  · exact (congrArg (fun x : Vector Bool 4 => x[p]) (State.answer_frame _ _ _ _).2.2.2.2.2.2.2.1).trans low
  · exact start.trans (v.deskReset_timer s.deskTime (time ▸ nonzero) (select ▸ high))

/-- A FIXED binding after DESK RESET (R17). -/
theorem Binding.deskReset_fixed {b : Binding} (owned : b.owner ≠ none) (fixed : b.hold = .fixed) :
    (∀ l, b.cls = .toggle l → b.deskReset = { b with cls := .toggle false }) ∧
    ((∀ l, b.cls ≠ .toggle l) → b.deskReset = b) := by
  rw [Binding.deskReset, if_neg owned, if_pos fixed]
  refine ⟨fun l cls => by rw [cls]; rfl, fun other => ?_⟩
  rw [KeyClass.unlatched_same other]

theorem Binding.deskReset_free {b : Binding} (free : b.owner = none) : b.deskReset = b :=
  if_pos free

theorem Binding.deskReset_loose {b : Binding} (owned : b.owner ≠ none) (loose : b.hold ≠ .fixed) :
    b.deskReset = Binding.unbound (b.gen + 1) := by
  rw [Binding.deskReset, if_neg owned, if_neg loose]

end

/-- Settles O57: the walk over the bindings, then each record by its own reset. -/
theorem deskResetClearsTheDesk : Obligations.DeskResetClearsTheDesk := by
  intro s hw law
  obtain ⟨law, -⟩ := State.yieldLaw_iff.mp law
  have done := State.deskReset_wasReset law hw
  have runs := execDeskReset_eq hw
  have supervisor := done.answered hw
  obtain ⟨drawn, unknown, flags⟩ := done.lamps
  have table := (State.answer_frame s.deskReset 0 .ok []).1
  refine ⟨s.deskReset.answer 0 .ok [], runs, ?_, fun q free => ?_, fun q owned loose => ?_, fun q owned fixed => ?_,
    fun i => ?_, fun i a ha => ?_, done.hosts, ?_, fun g => ?_, ?_, fun q => ?_, fun b => ?_, fun n => ?_,
    done.changes.answer 0 .ok [] _ (fun _ h => h) (by simp)⟩
  · show (s.deskReset.answer 0 .ok []).ports[(0 : Port)].state = _ ∧
      (s.deskReset.answer 0 .ok []).ports[(0 : Port)].refused = s.ports[(0 : Port)].refused
    rw [supervisor, done.own]
    exact ⟨rfl, rfl⟩
  · rw [table, done.binding q, Binding.deskReset_free free]
  · rw [table, done.binding q, Binding.deskReset_loose owned loose]
  · rw [table, done.binding q]
    exact Binding.deskReset_fixed owned fixed
  · rw [(State.answer_frame _ _ _ _).2.2.2.2.1]
    exact done.asks i
  · rw [State.answer_other _ (law.asker_ne hw nofun ha).symm]
    exact done.asker i a ha
  · rw [(State.answer_frame _ _ _ _).2.1]
    exact done.held
  · rw [(State.answer_frame _ _ _ _).2.2.2.1]
    exact done.group g
  · rw [(State.answer_frame _ _ _ _).2.2.1, done.profiles]
    rfl
  · rw [(State.answer_frame _ _ _ _).2.2.2.2.2.2.2.2.1, (State.answer_frame _ _ _ _).2.2.2.2.2.2.2.2.2.1, drawn q]
    exact ⟨(State.lampFor_congr q (by simp) (by simp) (by simp)).symm, unknown q⟩
  · rw [(State.answer_frame _ _ _ _).2.2.2.2.2.2.2.2.2.2.1]
    exact flags b
  · rw [(State.answer_frame _ _ _ _).2.2.2.2.2.2.2.2.2.2.2.1, done.link n]
    exact ⟨fun i last start up => LinkEngine.resynced_up up, LinkEngine.resynced_other⟩

end Sys2Proof.Machine
end

section
/-! PROOF. Every act keeps the groups and the asks in their laws (R40 to R42, R96, R97). -/

namespace Sys2Proof.Machine

section
variable {s t : State} {q : KeyPos}

/-! ## What leaves the members as they are -/

/-- Owners and memberships stand, and so does each group but for its mode and a selection among its members. -/
structure Reselected (s t : State) : Prop where
  owner : ∀ k : KeyPos, t.table[k].owner = s.table[k].owner
  cls : ∀ (k : KeyPos) g, t.table[k].cls = .select g ↔ s.table[k].cls = .select g
  group : ∀ g : GroupId, (s.groups[g] = none ∧ t.groups[g] = none) ∨ ∃ x y, s.groups[g] = some x ∧ t.groups[g] = some y ∧
    y.owner = x.owner ∧ y.count = x.count ∧ ∀ k, y.selected = some k → x.selected = some k ∨ s.table[k].cls = .select g

theorem Reselected.of_groups (owner : ∀ k : KeyPos, t.table[k].owner = s.table[k].owner)
    (cls : ∀ (k : KeyPos) g, t.table[k].cls = .select g ↔ s.table[k].cls = .select g) (groups : t.groups = s.groups) :
    Reselected s t where
  owner := owner
  cls := cls
  group g := by
    rw [groups]
    cases s.groups[g] with
    | none => exact .inl ⟨rfl, rfl⟩
    | some x => exact .inr ⟨x, x, rfl, rfl, rfl, rfl, fun _ h => .inl h⟩

/-- One group changes its mode or its selection. -/
theorem Reselected.of_group (owner : ∀ k : KeyPos, t.table[k].owner = s.table[k].owner)
    (cls : ∀ (k : KeyPos) g, t.table[k].cls = .select g ↔ s.table[k].cls = .select g) {g : GroupId} {x y : SelGroup}
    (hx : s.groups[g] = some x) (groups : t.groups = upd s.groups g (some y)) (own : y.owner = x.owner)
    (count : y.count = x.count) (selected : ∀ k, y.selected = some k → x.selected = some k ∨ s.table[k].cls = .select g) :
    Reselected s t where
  owner := owner
  cls := cls
  group k := by
    rw [groups]
    by_cases e : g = k
    · subst e
      rw [upd_self]
      exact .inr ⟨x, y, hx, rfl, own, count, selected⟩
    · rw [upd_ne _ _ _ _ e]
      cases s.groups[k] with
      | none => exact .inl ⟨rfl, rfl⟩
      | some x => exact .inr ⟨x, x, rfl, rfl, rfl, rfl, fun _ h => .inl h⟩

theorem Reselected.groupLaw (h : Reselected s t) (law : s.GroupLaw) : t.GroupLaw := by
  have members : ∀ g, t.members g = s.members g := fun g => State.members_congr fun k => h.cls k g
  refine ⟨fun g => ?_, fun g => ?_, fun g y hy k hk => ?_, fun k g hg => ?_⟩
  · rw [members g, ← law.count g]
    obtain ⟨a, b⟩ | ⟨x, y, hx, hy, -, count, -⟩ := h.group g
    · rw [a, b]
    · rw [hx, hy]
      exact count
  · rw [members g]
    exact law.room g
  · obtain ⟨-, b⟩ | ⟨x, y', hx, hy', owner, -, selected⟩ := h.group g
    · rw [b] at hy
      cases hy
    · rw [hy'] at hy
      obtain rfl := Option.some.inj hy
      have member : s.table[k].cls = .select g ∧ s.table[k].owner = some x.owner := by
        obtain old | cls := selected k hk
        · exact law.selected g x hx k old
        · obtain ⟨z, hz, own⟩ := law.named k g (KeyClass.eq_select.mpr cls)
          rw [hx] at hz
          cases hz
          exact ⟨cls, own⟩
      rw [h.cls k g, h.owner k, owner]
      exact member
  · obtain ⟨x, hx, owner⟩ := law.named k g (KeyClass.eq_select.mpr ((h.cls k g).mp (KeyClass.eq_select.mp hg)))
    obtain ⟨a, -⟩ | ⟨x', y, hx', hy, own, -⟩ := h.group g
    · rw [a] at hx
      cases hx
    · rw [hx'] at hx
      obtain rfl := Option.some.inj hx
      exact ⟨y, hy, by rw [h.owner k, owner, own]⟩

theorem Reselected.askLaw (h : Reselected s t) (law : s.AskLaw)
    (asks : ∀ (i : AskId) a, t.asks[i] = some a → s.asks[i] = some a)
    (hold : ∀ (i : AskId) a, t.asks[i] = some a → t.table[a.pos].hold = .opened)
    (working : ∀ (i : AskId) a, t.asks[i] = some a → ∀ r, WorkingOn s a.asker r → WorkingOn t a.asker r) : t.AskLaw := by
  refine law.kept asks (fun i a ha => ⟨?_, hold i a ha⟩) working fun i a ha g x hx _ => ?_
  · rw [h.owner a.pos]
    exact (law.holder i a (asks i a ha)).1
  · obtain ⟨b, -⟩ | ⟨x', y, hx', hy, own, count, -⟩ := h.group g
    · rw [b] at hx
      cases hx
    · rw [hx'] at hx
      obtain rfl := Option.some.inj hx
      exact ⟨y, hy, own, count.le⟩

/-- The groups a press reaches: the selection of the group of its key (R102). -/
theorem State.pressKey_groups (s : State) (resync : Bool) (q : KeyPos) : (s.pressKey resync q).groups = s.groups ∨
    ∃ g x y, s.table[q].cls = .select g ∧ s.groups[g] = some x ∧ (y = none ∨ y = some q) ∧
      (s.pressKey resync q).groups = upd s.groups g (some { x with selected := y }) := by
  by_cases held : ∃ r ∈ s.held, r.pos = q
  · exact .inl (by rw [State.pressKey_held held])
  have fresh : ∀ r ∈ s.held, r.pos ≠ q := fun r hr e => held ⟨r, hr, e⟩
  by_cases room : s.held.length < 16
  · cases owner : s.table[q].owner with
    | none =>
      rw [State.pressKey_unowned fresh room owner]
      exact .inl (by simp [State.withNew])
    | some k =>
      cases group : s.table[q].cls.group? with
      | none =>
        obtain ⟨-, -, -, -, changes⟩ := State.pressKey_opens fresh room owner group resync
        exact .inl (changes .groups (by simp))
      | some g =>
        have select := KeyClass.eq_select.mp group
        rw [State.pressKey_select fresh room owner select resync]
        simp only [(State.rederive_frame _ _).2.2.2.1]
        cases hg : s.groups[g] with
        | none =>
          have hg : (s.withNew q resync).groups[g] = none := hg
          have same : (s.withNew q resync).pressSelect q k g resync = s.withNew q resync := by
            simp only [State.pressSelect, hg]
          rw [same]
          exact .inl rfl
        | some x =>
          have hg' : (s.withNew q resync).groups[g] = some x := hg
          cases sel : x.selected with
          | none =>
            rw [State.pressSelect_first hg' sel]
            exact .inr ⟨g, x, some q, select, hg, .inr rfl, by simp [State.withNew]⟩
          | some old =>
            by_cases same : old = q
            · subst same
              cases mode : x.mode with
              | strict =>
                rw [State.pressSelect_strict hg' sel mode]
                exact .inl rfl
              | loose =>
                rw [State.pressSelect_loose hg' sel mode]
                exact .inr ⟨g, x, none, select, hg, .inl rfl, by simp [State.withNew]⟩
            · rw [State.pressSelect_change hg' sel same]
              exact .inr ⟨g, x, some q, select, hg, .inr rfl, by simp [State.withNew]⟩
  · have full : 16 ≤ s.held.length := by omega
    refine .inl ?_
    cases owner : s.table[q].owner with
    | none => rw [State.pressKey_full_unowned fresh full owner]
    | some k => rw [State.pressKey_full_owned fresh full owner]; simp

theorem Binding.pressed_cls (b : Binding) (g : GroupId) : b.pressed.cls = .select g ↔ b.cls = .select g := by
  unfold Binding.pressed
  split
  next h l _ cls => rw [cls]; exact ⟨fun e => (by cases e), fun e => (by cases e)⟩
  next => exact Iff.rfl

/-- One binding is rewritten with its owner and its group as before. -/
theorem relabelled {b : Binding} (table : t.table = upd s.table q b) (owner : b.owner = s.table[q].owner)
    (cls : ∀ g, b.cls = .select g ↔ s.table[q].cls = .select g) :
    (∀ k : KeyPos, t.table[k].owner = s.table[k].owner) ∧
    ∀ (k : KeyPos) g, t.table[k].cls = .select g ↔ s.table[k].cls = .select g := by
  have both : ∀ k : KeyPos, t.table[k].owner = s.table[k].owner ∧
      ∀ g, t.table[k].cls = .select g ↔ s.table[k].cls = .select g := by
    intro k
    rw [table]
    by_cases e : q = k
    · subst e
      rw [upd_self]
      exact ⟨owner, cls⟩
    · rw [upd_ne _ _ _ _ e]
      exact ⟨rfl, fun _ => Iff.rfl⟩
  exact ⟨fun k => (both k).1, fun k => (both k).2⟩

theorem State.pressKey_reselected (s : State) (resync : Bool) (q : KeyPos) : Reselected s (s.pressKey resync q) := by
  have kept : (∀ k : KeyPos, (s.pressKey resync q).table[k].owner = s.table[k].owner) ∧
      ∀ (k : KeyPos) g, (s.pressKey resync q).table[k].cls = .select g ↔ s.table[k].cls = .select g := by
    obtain same | ⟨-, turned⟩ := s.pressKey_table resync q
    · rw [same]
      exact ⟨fun _ => rfl, fun _ _ => Iff.rfl⟩
    · exact relabelled turned s.table[q].pressed_eq.2.2 s.table[q].pressed_cls
  obtain same | ⟨g, x, y, select, hx, hy, groups⟩ := s.pressKey_groups resync q
  · exact .of_groups kept.1 kept.2 same
  · refine .of_group kept.1 kept.2 hx groups rfl rfl fun k hk => ?_
    obtain rfl | rfl := hy
    · cases hk
    · cases hk
      exact .inr select

/-- A press writes no hold. -/
theorem State.pressKey_hold (s : State) (resync : Bool) (q k : KeyPos) :
    (s.pressKey resync q).table[k].hold = s.table[k].hold := by
  obtain same | ⟨-, turned⟩ := s.pressKey_table resync q
  · rw [same]
  · rw [turned]
    by_cases e : q = k
    · subst e
      rw [upd_self]
      unfold Binding.pressed
      split <;> rfl
    · rw [upd_ne _ _ _ _ e]

end

end Sys2Proof.Machine
end

section
/-! PROOF. The laws of the groups and of the asks, kept by every act (R40 to R42, R96, R97). -/

namespace Sys2Proof.Machine

section
variable {s t : State} {q : KeyPos}

/-- The groups and the asks in their laws. -/
def State.Yields (s : State) : Prop :=
  s.GroupLaw ∧ s.AskLaw

/-- Nothing that the two laws read has changed but the ports, and those of askers not at all. -/
theorem State.Yields.of_same (law : s.Yields) (table : t.table = s.table) (groups : t.groups = s.groups)
    (asks : t.asks = s.asks)
    (working : ∀ (i : AskId) a, s.asks[i] = some a → ∀ r, WorkingOn s a.asker r → WorkingOn t a.asker r) : t.Yields :=
  ⟨(Reselected.of_groups (fun _ => by rw [table]) (fun _ _ => by rw [table]) groups).groupLaw law.1,
    law.2.of_same asks table groups working⟩

theorem State.Yields.of_ports (law : s.Yields) (table : t.table = s.table) (groups : t.groups = s.groups)
    (asks : t.asks = s.asks) (ports : t.ports = s.ports) : t.Yields :=
  law.of_same table groups asks fun _ _ _ _ h => h.congr ports

/-- Owners, memberships and holds stand, and the groups but for a selection. -/
theorem State.Yields.reselected (law : s.Yields) (h : Reselected s t) (asks : t.asks = s.asks) (ports : t.ports = s.ports)
    (hold : ∀ k : KeyPos, t.table[k].hold = s.table[k].hold) : t.Yields :=
  ⟨h.groupLaw law.1, h.askLaw law.2 (fun _ _ ha => asks ▸ ha)
    (fun i a ha => (hold a.pos).trans (law.2.holder i a (asks ▸ ha)).2) fun _ _ _ _ w => w.congr ports⟩

theorem State.Yields.answer (law : s.Yields) {p : Port} (unasked : s.Unasked p) (st : StatusCode) (d : List Byte) :
    (s.answer p st d).Yields :=
  law.of_same (by simp) (by simp) (by simp) fun i _ ha _ h => h.answer_other (law.2.unasked unasked i ha) st d

theorem State.Yields.endAsk (law : s.Yields) {i : AskId} {a : Ask} (ask : s.asks[i] = some a) (st : StatusCode) :
    (s.endAsk i a st).Yields :=
  ⟨(Reselected.of_groups (fun _ => by simp) (fun _ _ => by simp) (by simp)).groupLaw law.1, law.2.endAsk ask st⟩

/-- After the asks on a position have ended none is pending on it. -/
theorem State.AskLaw.endAskOn_away (law : s.AskLaw) (st : StatusCode) (i : AskId) {a : Ask}
    (ha : (s.endAskOn q st).asks[i] = some a) : s.asks[i] = some a ∧ a.pos ≠ q := by
  cases ask : s.askOn q with
  | none =>
    rw [State.endAskOn_none ask] at ha
    exact ⟨ha, State.askOn_eq_none_iff.mp ask i a ha⟩
  | some e =>
    obtain ⟨j, b⟩ := e
    rw [State.endAskOn_some ask, State.endAsk_asks] at ha
    obtain ⟨ne, ha⟩ := removed_ask ha
    obtain ⟨ask, here⟩ := State.askOn_mem ask
    exact ⟨ha, here ▸ (law.distinct i j a b ha ask ne).1⟩

theorem State.Yields.endAskOn (law : s.Yields) (q : KeyPos) (st : StatusCode) : (s.endAskOn q st).Yields := by
  cases ask : s.askOn q with
  | none => rwa [State.endAskOn_none ask]
  | some e =>
    rw [State.endAskOn_some (i := e.1) (a := e.2) ask]
    exact law.endAsk (State.askOn_mem ask).1 st

/-- PIN and FIX at a position: the ask on it ends, and its hold is written (R28, R30). -/
theorem State.Yields.hold (law : s.Yields) (h : Hold) (q : KeyPos) (st : StatusCode) :
    ((s.setHold h q).endAskOn q st).Yields := by
  have ended := law.endAskOn q st
  have table : ((s.setHold h q).endAskOn q st).table = upd s.table q { s.table[q] with hold := h } := by
    rw [(State.endAskOn_frame _ _ _).1]
    rfl
  have same : ((s.setHold h q).endAskOn q st).asks = (s.endAskOn q st).asks ∧
      ((s.setHold h q).endAskOn q st).ports = (s.endAskOn q st).ports := by
    cases ask : s.askOn q with
    | none =>
      rw [State.endAskOn_none ask, State.endAskOn_none (s := s.setHold h q) ask]
      exact ⟨rfl, rfl⟩
    | some e =>
      obtain ⟨i, a⟩ := e
      rw [State.endAskOn_some ask, State.endAskOn_some (s := s.setHold h q) ask, State.endAsk_asks, State.endAsk_asks,
        State.endAsk_ports, State.endAsk_ports]
      exact ⟨rfl, State.answer_ports_congr (s := s) (t := s.setHold h q) rfl _ _ _⟩
  have kept : Reselected (s.endAskOn q st) ((s.setHold h q).endAskOn q st) := by
    obtain ⟨owner, cls⟩ := relabelled (s := s.endAskOn q st) (t := (s.setHold h q).endAskOn q st) (q := q)
      (b := { s.table[q] with hold := h }) (by rw [table]; simp) (by simp) (fun g => by simp)
    exact .of_groups owner cls (by simp)
  refine ⟨kept.groupLaw ended.1, kept.askLaw ended.2 (fun i a ha => same.1 ▸ ha) (fun i a ha => ?_)
    fun _ _ _ _ w => w.congr same.2⟩
  rw [same.1] at ha
  obtain ⟨ask, away⟩ := law.2.endAskOn_away st i ha
  rw [table, upd_ne _ _ _ _ (Ne.symm away)]
  exact (law.2.holder i a ask).2

/-- UNPIN and LAMP write a hold OPEN, or none. -/
theorem State.Yields.relabel (law : s.Yields) {b : Binding} (table : t.table = upd s.table q b)
    (owner : b.owner = s.table[q].owner) (cls : b.cls = s.table[q].cls)
    (hold : s.table[q].hold = .opened → b.hold = .opened) (groups : t.groups = s.groups) (asks : t.asks = s.asks)
    (ports : t.ports = s.ports) : t.Yields := by
  obtain ⟨owner, kept⟩ := relabelled table owner fun g => by rw [cls]
  have same : Reselected s t := .of_groups owner kept groups
  refine ⟨same.groupLaw law.1, same.askLaw law.2 (fun i a ha => asks ▸ ha) (fun i a ha => ?_) fun _ _ _ _ w => w.congr ports⟩
  have opened := (law.2.holder i a (asks ▸ ha)).2
  rw [table]
  by_cases e : q = a.pos
  · subst e
    rw [upd_self]
    exact hold opened
  · rw [upd_ne _ _ _ _ e]
    exact opened

/-- A host that waits for no ask takes a position, whose asks keep their holder. -/
theorem State.Yields.taken (law : s.Yields) {p : Port} {b : Binding} {a : AttrSet} {member : GroupId → Prop}
    (moved : Moved s t q b) (cls : ∀ g, b.cls = .select g → a.cls = .select g) (owner : b.owner = some p)
    (unasked : s.Unasked p) (room : s.RoomFor p a member) (mem : ∀ g, member g → s.table[q].cls = .select g)
    (here : ∀ (i : AskId) a, s.asks[i] = some a → a.pos = q → a.holder = p ∧ b.hold = .opened)
    (asks : t.asks = s.asks) (ports : t.ports = s.ports) : t.Yields := by
  refine ⟨law.1.moved moved fun g hg => ?_, law.2.moved moved (fun i a ha => asks ▸ ha) (fun i a ha e => ?_)
    (fun _ _ _ _ w => w.congr ports) fun g x hg hx i a ha own => ?_⟩
  · obtain ⟨x, hx, own, room⟩ := room g (KeyClass.eq_select.mpr (cls g hg))
    exact ⟨x, hx, by rw [owner, own], room.imp id (mem g)⟩
  · obtain ⟨holder, hold⟩ := here i a (asks ▸ ha) e
    exact ⟨by rw [owner, holder], hold⟩
  · obtain ⟨y, hy, owned, -⟩ := room g (KeyClass.eq_select.mpr (cls g hg))
    rw [hx] at hy
    cases hy
    exact law.2.unasked unasked i (asks ▸ ha) (own.symm.trans owned)

/-- A grant: the entry, if there is one, goes, and the asker is answered (R47). -/
theorem State.Yields.granted (law : s.Yields) {p h : Port} {a : AttrSet} {e : Option AskId}
    (room : ∀ g, a.cls = .select g → ∃ x, s.groups[g] = some x ∧ x.owner = p ∧ x.count < 128)
    (left : ∀ (i : AskId) b, (s.grant e p h a q).asks[i] = some b → s.asks[i] = some b ∧ b.pos ≠ q ∧ b.asker ≠ p) :
    (s.grant e p h a q).Yields := by
  have moved : Moved s (s.grant e p h a q) q (s.table[q].take p a) := State.grant_moved e p h a
  refine ⟨law.1.moved moved fun g hg => ?_, law.2.moved moved (fun i b hb => (left i b hb).1)
    (fun i b hb e => absurd e (left i b hb).2.1) (fun i b hb r hr => ?_) fun g x hg hx i b hb own => ?_⟩
  · obtain ⟨x, hx, own, less⟩ := room g hg
    exact ⟨x, hx, congrArg some own.symm, .inl less⟩
  · rw [WorkingOn, s.grant_ports]
    exact hr.answer_other (left i b hb).2.2 .granted _
  · obtain ⟨y, hy, owned, -⟩ := room g hg
    rw [hx] at hy
    cases hy
    exact (left i b hb).2.2 (own.symm.trans owned)

end

end Sys2Proof.Machine
end

section
/-! PROOF. The groups and the asks through every act: the cases put together. -/

namespace Sys2Proof.Machine

section
variable {s t : State}

theorem State.askLaw_of_empty (none : ∀ i : AskId, s.asks[i] = none) : s.AskLaw where
  holder i a ha := by rw [none i] at ha; cases ha
  other i a ha := by rw [none i] at ha; cases ha
  working i a ha := by rw [none i] at ha; cases ha
  distinct i j a b ha hb := by rw [none i] at ha; cases ha
  group i a ha := by rw [none i] at ha; cases ha

/-- No group is OPEN and no binding is SELECT. -/
theorem State.groupLaw_of_empty (free : ∀ g : GroupId, s.groups[g] = none)
    (none : ∀ k : KeyPos, s.table[k].cls.group? = none) : s.GroupLaw := by
  have members : ∀ g, s.members g = 0 := fun g => State.members_eq_zero.mpr fun k e => by
    have := none k
    rw [e] at this
    cases this
  refine ⟨fun g => by rw [free g, members g]; rfl, fun g => by rw [members g]; exact Nat.zero_le _, fun g x hx => ?_,
    fun k g hg => ?_⟩
  · rw [free g] at hx
    cases hx
  · rw [none k] at hg
    cases hg

/-- A group that is FREE opens without members (R98). -/
theorem State.Yields.openGroup (law : s.Yields) {g : GroupId} (free : s.groups[g] = none) (x : SelGroup)
    (empty : x.count = 0) (none : x.selected = .none) : (s.setGroup g (some x)).Yields := by
  have zero : s.members g = 0 := by
    have count := law.1.count g
    rw [free] at count
    exact count.symm
  have members : ∀ k, (s.setGroup g (some x)).members k = s.members k := fun k => State.members_congr fun _ => Iff.rfl
  refine ⟨⟨fun k => ?_, fun k => ?_, fun k y hy q hq => ?_, fun q k hk => ?_⟩,
    law.2.kept (fun _ _ ha => ha) law.2.holder (fun _ _ _ _ w => w.congr rfl) fun i a ha k y hy _ => ?_⟩
  · rw [members k, State.setGroup_group]
    split
    next e =>
      subst e
      rw [zero]
      exact empty
    next => exact law.1.count k
  · rw [members k]
    exact law.1.room k
  · rw [State.setGroup_group] at hy
    split at hy
    next =>
      cases hy
      rw [none] at hq
      cases hq
    next => exact law.1.selected k y hy q hq
  · obtain ⟨y, hy, own⟩ := law.1.named q k hk
    have ne : g ≠ k := fun e => by
      subst e
      rw [free] at hy
      cases hy
    exact ⟨y, by rw [State.setGroup_group, if_neg ne]; exact hy, own⟩
  · have ne : g ≠ k := fun e => by
      subst e
      rw [free] at hy
      cases hy
    exact ⟨y, by rw [State.setGroup_group, if_neg ne]; exact hy, rfl, le_rfl⟩

/-- Groups without members whose owners wait for no ask become FREE (R37, R99). -/
theorem State.Yields.closed (law : s.Yields) (table : t.table = s.table) (asks : t.asks = s.asks) (ports : t.ports = s.ports)
    (group : ∀ g : GroupId, t.groups[g] = s.groups[g] ∨ ∃ x, s.groups[g] = some x ∧ t.groups[g] = none ∧
      x.count = 0 ∧ s.Unasked x.owner) : t.Yields := by
  have members : ∀ k, t.members k = s.members k := fun k => State.members_congr fun _ => by rw [table]
  have memberless : ∀ (g : GroupId) x, s.groups[g] = some x → x.count = 0 → ∀ k : KeyPos, s.table[k].cls ≠ .select g := by
    intro g x hx zero
    have count := law.1.count g
    rw [hx] at count
    exact State.members_eq_zero.mp (count.symm.trans zero)
  refine ⟨⟨fun k => ?_, fun k => ?_, fun k y hy q hq => ?_, fun q k hk => ?_⟩,
    law.2.kept (fun _ _ ha => asks ▸ ha) (fun i a ha => ?_) (fun _ _ _ _ w => w.congr ports) fun i a ha k y hy own => ?_⟩
  · rw [members k, ← law.1.count k]
    obtain same | ⟨x, hx, none, zero, -⟩ := group k
    · rw [same]
    · rw [none, hx]
      exact zero.symm
  · rw [members k]
    exact law.1.room k
  · obtain same | ⟨x, hx, none, -⟩ := group k
    · rw [table]
      exact law.1.selected k y (same ▸ hy) q hq
    · rw [none] at hy
      cases hy
  · rw [table] at hk ⊢
    obtain ⟨y, hy, own⟩ := law.1.named q k hk
    obtain same | ⟨x, hx, none, zero, -⟩ := group k
    · exact ⟨y, same ▸ hy, own⟩
    · exact absurd (KeyClass.eq_select.mp hk) (memberless k x hx zero q)
  · rw [table]
    exact law.2.holder i a (asks ▸ ha)
  · obtain same | ⟨x, hx, -, -, unasked⟩ := group k
    · exact ⟨y, same.trans hy, rfl, le_rfl⟩
    · rw [hx] at hy
      cases hy
      exact absurd own.symm (law.2.unasked unasked i (asks ▸ ha))

/-- What the walk of LEAVE keeps, `v` the positions gone through. -/
structure LeaveWalk (p : Port) (v : List KeyPos) (t : State) : Prop where
  yields : t.Yields
  bindings : t.BindingsLaw
  alone : ∀ (i : AskId) a, t.asks[i] = some a → a.asker ≠ p
  left : ∀ q ∈ v, t.table[q].owner = some p → t.table[q].hold = .fixed

theorem LeaveWalk.step {p : Port} {v : List KeyPos} {q : KeyPos} (w : LeaveWalk p v t) :
    LeaveWalk p (v ++ [q]) (State.leavePos p t q) := by
  have member : ∀ {k : KeyPos}, k ∈ v ++ [q] → k ≠ q → k ∈ v := fun h ne =>
    (List.mem_append.mp h).resolve_right fun e => ne (List.mem_singleton.mp e)
  unfold State.leavePos
  split
  next leaves =>
    have askLaw := State.releasePos_askLaw w.yields.2 false q
    refine ⟨⟨State.releasePos_groupLaw w.yields.1 w.yields.2 false q, askLaw⟩, State.releasePos_bindings w.bindings false q,
      fun i a ha => ?_, fun k hk owned => ?_⟩
    · cases ask : t.askOn q with
      | none => exact w.alone i a ((t.releasePos_unasked_moved false ask).2.1 ▸ ha)
      | some e => exact w.alone i a (State.releasePos_asks_left w.yields.2 ask false i ha).1
    · by_cases e : k = q
      · subst e
        rw [t.releasePos_record false k] at owned
        cases ask : t.askOn k with
        | none =>
          rw [ask] at owned
          cases owned
        | some e =>
          rw [ask] at owned
          exact absurd (Option.some.inj owned) (w.alone e.1 e.2 (State.askOn_mem ask).1)
      · rw [t.releasePos_other_table false (q := q) (k := k) e] at owned ⊢
        exact w.left k (member hk e) owned
  next stays =>
    refine ⟨w.yields, w.bindings, w.alone, fun k hk owned => ?_⟩
    by_cases e : k = q
    · subst e
      exact not_not.mp fun loose => stays ⟨owned, loose⟩
    · exact w.left k (member hk e) owned

theorem State.Yields.leaveWalk (law : s.Yields) (bindings : s.BindingsLaw) {p : Port} (unasked : s.Unasked p) :
    LeaveWalk p (List.finRange 1024) (s.overTable (State.leavePos p)) :=
  walk_induct (List.nodup_finRange 1024) ⟨law, bindings, fun i _ ha => law.2.unasked unasked i ha,
    fun _ hq => absurd hq List.not_mem_nil⟩ fun _ _ _ _ _ w => w.step

/-- LEAVE leaves its host FIXED positions alone, so that its groups, which become FREE, have no member (R37). -/
theorem State.Yields.leave (law : s.Yields) (bindings : s.BindingsLaw) {p : Port} (unasked : s.Unasked p) :
    ((s.overTable (State.leavePos p)).freeGroupsOf p).Yields := by
  have walk := law.leaveWalk bindings unasked
  have left : ∀ k : KeyPos, (s.overTable (State.leavePos p)).table[k].owner = some p →
      (s.overTable (State.leavePos p)).table[k].hold = .fixed := fun k => walk.left k (List.mem_finRange k)
  obtain ⟨yields, bindings, alone, -⟩ := walk
  generalize s.overTable (State.leavePos p) = t at yields bindings alone left ⊢
  refine yields.closed (by simp) (by simp) (by simp) fun g => ?_
  cases hx : t.groups[g] with
  | none => exact .inl (t.freeGroupsOf_gone fun x h => by rw [hx] at h; cases h)
  | some x =>
    by_cases own : x.owner = p
    · subst own
      refine .inr ⟨x, rfl, t.freeGroupsOf_gone fun y h => by rw [hx] at h; cases h; rfl, ?_, fun w raw _ => ?_⟩
      · have count := yields.1.count g
        rw [hx] at count
        refine count.trans (State.members_eq_zero.mpr fun k cls => ?_)
        obtain ⟨y, hy, owner⟩ := yields.1.named k g (KeyClass.eq_select.mpr cls)
        rw [hx] at hy
        cases hy
        have none := ((bindings k).fixed (left k owner)).2
        rw [cls] at none
        cases none
      · exact State.askOf_eq_none_iff.mpr alone
    · refine .inl (Eq.trans ?_ hx)
      have group := t.freeGroupsOf_group p g
      rw [group, hx]
      exact if_neg own

/-- A new entry stands as R42 has checked it. -/
theorem State.Yields.entry (law : s.Yields) {i : AskId} {n : Ask} {raw : RawAttrs}
    (working : WorkingOn s n.asker (.yieldAsk (BitVec.ofNat 16 n.pos.1) raw)) (valid : raw.validate = some n.set)
    (unasked : s.askOf n.asker = none) (free : s.askOn n.pos = none) (owned : s.table[n.pos].owner = some n.holder)
    (other : n.holder ≠ n.asker) (hold : s.table[n.pos].hold = .opened)
    (room : s.RoomFor n.asker n.set fun _ => False) : (s.setAsk i (some n)).Yields := by
  have entry : ∀ (j : AskId) b, (s.setAsk i (some n)).asks[j] = some b → (j = i ∧ b = n) ∨ (j ≠ i ∧ s.asks[j] = some b) := by
    intro j b hb
    by_cases e : i = j
    · subst e
      rw [State.setAsk_asks, upd_self] at hb
      exact .inl ⟨rfl, (Option.some.inj hb).symm⟩
    · rw [State.setAsk_asks, upd_ne _ _ _ _ e] at hb
      exact .inr ⟨Ne.symm e, hb⟩
  have alone := State.askOf_eq_none_iff.mp unasked
  have clear_ := State.askOn_eq_none_iff.mp free
  refine ⟨(Reselected.of_groups (s := s) (t := s.setAsk i (some n)) (fun _ => rfl) (fun _ _ => Iff.rfl) rfl).groupLaw law.1, ?_⟩
  refine ⟨fun j b hb => ?_, fun j b hb => ?_, fun j b hb => ?_, fun j k a b ha hb ne => ?_, fun j b hb g hg => ?_⟩
  · obtain ⟨-, rfl⟩ | ⟨-, hb⟩ := entry j b hb
    · exact ⟨owned, hold⟩
    · exact law.2.holder j b hb
  · obtain ⟨-, rfl⟩ | ⟨-, hb⟩ := entry j b hb
    · exact other.symm
    · exact law.2.other j b hb
  · obtain ⟨-, rfl⟩ | ⟨-, hb⟩ := entry j b hb
    · exact ⟨raw, valid, working⟩
    · exact law.2.working j b hb
  · obtain ⟨jn, an⟩ | ⟨-, olda⟩ := entry j a ha <;> obtain ⟨kn, bn⟩ | ⟨-, oldb⟩ := entry k b hb
    · exact absurd (jn.trans kn.symm) ne
    · rw [an]
      exact ⟨(clear_ k b oldb).symm, (alone k b oldb).symm⟩
    · rw [bn]
      exact ⟨clear_ j a olda, alone j a olda⟩
    · exact law.2.distinct j k a b olda oldb ne
  · obtain ⟨-, rfl⟩ | ⟨-, hb⟩ := entry j b hb
    · obtain ⟨x, hx, own, room⟩ := room g (KeyClass.eq_select.mpr hg)
      exact ⟨x, hx, own, room.resolve_right fun h => h⟩
    · exact law.2.group j b hb g hg

/-- A port is changed, but for what it works on. -/
theorem State.states_upd {p : Port} {u : PortUnit} (ports : t.ports = upd s.ports p u) (state : u.state = s.ports[p].state)
    (k : Port) : t.ports[k].state = s.ports[k].state := by
  rw [ports]
  by_cases e : p = k
  · subst e
    rw [upd_self, state]
  · rw [upd_ne _ _ _ _ e]

theorem State.Yields.of_unit (law : s.Yields) {p : Port} {u : PortUnit} (table : t.table = s.table)
    (groups : t.groups = s.groups) (asks : t.asks = s.asks) (ports : t.ports = upd s.ports p u)
    (state : u.state = s.ports[p].state) : t.Yields :=
  law.of_same table groups asks fun _ a _ _ w => (State.states_upd ports state a.asker).trans w

/-- CLEAR TABLE unbinds every owned position and ends every ask (R34). -/
theorem clear_walk_asks (law : s.AskLaw) :
    Rewritten s (s.overTable State.clearPos) Binding.cleared (List.finRange 1024) ∧
    AsksEnd s (s.overTable State.clearPos) (fun a => a.pos ∈ List.finRange 1024) (fun _ => ⟨.reset, 0x20, []⟩) := by
  refine walk_induct (P := fun v t => Rewritten s t Binding.cleared v ∧
    AsksEnd s t (fun a => a.pos ∈ v) (fun _ => ⟨.reset, 0x20, []⟩)) (List.nodup_finRange 1024)
    ⟨.nil s _, .refl s _ fun _ _ _ => List.not_mem_nil⟩ fun v q t fresh hq ⟨table, asks⟩ => ⟨?_, ?_⟩
  · clear hq
    refine table.next fresh ?_
    rw [t.clearPos_table q]
    unfold Binding.cleared
    split
    · exact (upd_same _ _).symm
    · rfl
  · clear hq
    have record : t.table[q] = s.table[q] := by rw [table q, if_neg fresh]
    cases owner : t.table[q].owner with
    | none =>
      rw [State.clearPos_free owner]
      refine asks.next rfl rfl fun j b hb => ?_
      simp only [List.mem_append, List.mem_singleton]
      refine ⟨fun h => h.resolve_right fun e => ?_, .inl⟩
      have held := (law.holder j b hb).1
      subst e
      rw [← record, owner] at held
      cases held
    | some h =>
      obtain ⟨still, ends⟩ := State.clearPos_ask owner
      have all : AsksEnd s (t.clearPos q) (fun b => b.pos ∈ v ∨ b.pos = q) (fun _ => ⟨.reset, 0x20, []⟩) :=
        asks.position law (st := .reset) (d := []) still fun i a ask => ⟨(ends i a ask).1, (ends i a ask).2, rfl⟩
      exact all.next rfl rfl fun j b _ => by simp

/-- No ask is left where every position's asks have ended. -/
theorem AsksEnd.over {f : Ask → Answer} (h : AsksEnd s t (fun a => a.pos ∈ List.finRange 1024) f) (i : AskId) :
    t.asks[i] = none := by
  cases ha : t.asks[i] with
  | none => rfl
  | some a => exact absurd (List.mem_finRange a.pos) ((h.asks i a).mp ha).2

theorem BindingLaw.cleared {b : Binding} (law : BindingLaw b) : b.cleared.cls.group? = none := by
  unfold Binding.cleared
  split
  next free => exact law.group?_of_free free
  next => rfl

theorem Binding.deskReset_hold {b : Binding} (owned : b.owner ≠ none) (fixed : b.hold = .fixed) :
    b.deskReset.hold = .fixed := by
  rw [Binding.deskReset, if_neg owned, if_pos fixed]
  exact fixed

theorem Binding.replace_group (b : Binding) (a : AttrSet) : (b.replace a).cls.group? = a.cls.group? := by
  unfold Binding.replace replaceClass
  split
  next e => rw [e]; rfl
  next => rfl

theorem BindingLaw.deskReset_group {b : Binding} (law : BindingLaw b) : b.deskReset.cls.group? = none := by
  by_cases free : b.owner = none
  · rw [Binding.deskReset_free free]
    exact law.group?_of_free free
  by_cases fixed : b.hold = .fixed
  · exact (law.deskReset.fixed (Binding.deskReset_hold free fixed)).2
  · rw [Binding.deskReset_loose free fixed]
    rfl

/-- Every act keeps the groups and the asks in their laws (R40 to R42, R96, R97). -/
theorem Act.yields (h : Act s t) (law : s.Yields) (bindings : s.BindingsLaw) (ports : s.PortsLaw) : t.Yields := by
  cases h with
  | port p u mode state kept =>
    refine law.of_same rfl rfl rfl fun i a ha r hr => ?_
    by_cases e : p = a.asker
    · subst e
      obtain same | idle := state
      · rw [WorkingOn, State.setPort_ports, upd_self, same]
        exact hr
      · exact absurd hr (idle _ (ports a.asker) r)
    · rw [WorkingOn, State.setPort_ports, upd_ne _ _ _ _ e]
      exact hr
  | answer p st d unasked taken => exact law.answer unasked st d
  | endAsk i a st ask => exact law.endAsk ask st
  | unpin q owned => exact law.relabel (q := q) rfl rfl rfl (fun _ => rfl) rfl rfl rfl
  | hold h q st owned fixed => exact law.hold h q st
  | lampValue v q owned =>
    exact law.relabel (q := q) (b := { s.table[q] with lampValue := v }) ((State.rederive_frame _ _).1.trans rfl) rfl rfl id (by simp [State.setLampValue])
      (by simp [State.setLampValue]) (by simp [State.setLampValue])
  | acquire p a q unasked free room =>
    refine law.taken (State.acquire_moved p a ((bindings q).group?_of_free free)) (fun g h => h) rfl unasked room (fun g h => h.elim) (fun i b hb e => ?_)
      (by simp [State.acquire]) (by simp [State.acquire])
    have owned := (law.2.holder i b hb).1
    subst e
    rw [free] at owned
    cases owned
  | replace p a q unasked own loose room =>
    obtain ⟨owner, hold, -⟩ := State.replace_group s.table[q] a
    have cls := Binding.replace_group s.table[q] a
    by_cases same : s.table[q].cls.group? = a.cls.group?
    · have stay : ∀ k : GroupId, (s.replacePos a q).groups[k] = s.groups[k] := fun k => by
        rw [s.replacePos_group a q k, if_pos same]
      obtain ⟨owner, kept⟩ := relabelled (s.replacePos_table a q) owner fun g => by
        rw [← KeyClass.eq_select, ← KeyClass.eq_select, cls, same]
      refine law.reselected (.of_groups owner kept (eq_of_entries stay)) (by simp) (by simp) fun k => ?_
      rw [s.replacePos_table]
      by_cases e : q = k
      · subst e
        rw [upd_self, hold]
      · rw [upd_ne _ _ _ _ e]
    · refine law.taken (q := q) ⟨s.replacePos_table a q, fun g => ?_⟩ (fun g h => ?_) (owner.trans own) unasked room
        (fun g h => h) (fun i b hb e => ?_) (by simp) (by simp)
      · rw [s.replacePos_group a q g, if_neg same, moved_map, cls]
        by_cases old : s.table[q].cls.group? = some g
        · have new : a.cls.group? ≠ some g := fun e => same (old.trans e.symm)
          simp only [old, new, if_true, if_false]
        · simp only [old, if_false]
      · rw [← KeyClass.eq_select, ← cls]
        exact KeyClass.eq_select.mpr h
      · obtain ⟨owned, opened⟩ := law.2.holder i b hb
        subst e
        exact ⟨Option.some.inj (owned.symm.trans own), hold.trans opened⟩
  | release announce q owned =>
    exact ⟨State.releasePos_groupLaw law.1 law.2 announce q, State.releasePos_askLaw law.2 announce q⟩
  | grantEntry i a ask =>
    refine law.granted (law.2.group i a ask) fun j b hb => ?_
    rw [s.grant_asks] at hb
    obtain ⟨ne, hb⟩ := removed_ask hb
    exact ⟨hb, law.2.distinct j i b a hb ask ne⟩
  | grantNow p h a q w raw working unasked free owned other room =>
    refine law.granted (fun g hg => ?_) fun j b hb => ?_
    · obtain ⟨x, hx, own, less⟩ := room g (KeyClass.eq_select.mpr hg)
      exact ⟨x, hx, own, less.resolve_right fun h => h⟩
    · rw [s.grant_asks] at hb
      exact ⟨hb, State.askOn_eq_none_iff.mp free j b hb, State.askOf_eq_none_iff.mp unasked j b hb⟩
  | entry i p h a q raw deadline _ working valid unasked free owned other hold present room =>
    exact law.entry working valid unasked free owned other hold room
  | clearTable =>
    obtain ⟨table, asks⟩ := clear_walk_asks law.2
    refine ⟨State.groupLaw_of_empty (State.freeGroups_group _) fun k => ?_, State.askLaw_of_empty fun i => ?_⟩
    · rw [(State.freeGroups_frame _).1, table k, if_pos (List.mem_finRange k)]
      exact (bindings k).cleared
    · rw [(State.freeGroups_frame _).2.2.2.1]
      exact asks.over i
  | leave p unasked => exact law.leave bindings unasked
  | openGroup g p m free => exact law.openGroup free _ rfl rfl
  | groupMode g x m group =>
    exact law.reselected (.of_group (y := { x with mode := m }) (fun _ => rfl) (fun _ _ => Iff.rfl) group rfl rfl rfl
      fun _ h => .inl h) rfl rfl fun _ => rfl
  | closeGroup g x group unasked empty =>
    refine law.closed rfl rfl rfl fun k => ?_
    by_cases e : g = k
    · subst e
      exact .inr ⟨x, group, upd_self _ _ _, empty, unasked⟩
    · exact .inl (upd_ne _ _ _ _ e)
  | deselect g x group =>
    have groups : (s.deselect g x).groups = upd s.groups g (some { x with selected := none }) := by
      unfold State.deselect
      split
      next unselected =>
        have same : { x with selected := none } = x := by rw [← unselected]
        rw [same, ← group]
        exact (upd_same _ _).symm
      next => rw [(State.rederive_frame _ _).2.2.2.1]; rfl
    have table : (s.deselect g x).table = s.table := by simp
    exact law.reselected (.of_group (fun _ => by rw [table]) (fun _ _ => by rw [table]) group groups rfl rfl
      fun _ h => (by cases h)) (by simp) (by simp) fun _ => by rw [table]
  | press resync q session =>
    exact law.reselected (s.pressKey_reselected resync q) (by simp) (by simp) (s.pressKey_hold resync q)
  | deskReset =>
    obtain ⟨table, asks⟩ := reset_walk_spec law.2
    refine ⟨State.groupLaw_of_empty s.deskReset_group fun k => ?_, State.askLaw_of_empty fun i => ?_⟩
    · rw [s.deskReset_table, table k, if_pos (List.mem_finRange k)]
      exact (bindings k).deskReset_group
    · rw [s.deskReset_asks]
      exact asks.over i
  | due q r d period found phase =>
    obtain ⟨table, -, groups, asks, -, -, -, -, -, ports, -⟩ := s.dueAt_frame q r d period
    exact law.of_ports table groups asks ports
  | emptyQueue p =>
    have unit : (s.emptyQueue p).ports = upd s.ports p s.ports[p].emptied := by simp [State.emptyQueue]
    exact law.of_unit (by simp) (by simp) (by simp) unit rfl
  | fall p => exact law.of_unit (by simp) (by simp) (by simp) rfl rfl
  | removal p x c k left n q out txn reading counted queue =>
    exact law.of_unit (p := p) (u := { s.ports[p] with txn := some { x with left := left, reading := .notices true 0, out := out } })
      (by simp) (by simp) (by simp) (by simp [State.driveNote]) rfl
  | writePort p m lapse ok =>
    exact law.of_unit (by simp) (by simp) (by simp) (s.writePort_ports p m lapse).1 rfl
  | profile i f ok => exact law.of_ports rfl rfl rfl rfl
  | _ => exact law.of_ports (by simp) (by simp) (by simp) (by simp)

end

end Sys2Proof.Machine
end

section
/-! PROOF. What every act keeps of the holders' presence, the mask and the profiles (R41, R83, R155, R166). -/

namespace Sys2Proof.Machine

/-! ## Asks served -/

theorem defaultProfiles_law (i : ProfileId) : ProfileLaw defaultProfiles[i] := by
  have all : ∀ i : ProfileId, 1 ≤ defaultProfiles[i].delay.toNat ∧ defaultProfiles[i].step.toNat ≤ 15 ∧
      1 ≤ defaultProfiles[i].floor.toNat ∧ defaultProfiles[i].floor.toNat ≤ defaultProfiles[i].period.toNat := by decide
  obtain ⟨delay, step, floor, order⟩ := all i
  exact ⟨delay, step, floor, order⟩

/-- No ask is new, and only the ports of askers can change what they work on. -/
structure AsksServed (s t : State) : Prop where
  asks : ∀ (i : AskId) a, t.asks[i] = some a → s.asks[i] = some a
  others : ∀ p : Port, (∀ (i : AskId) a, s.asks[i] = some a → a.asker ≠ p) → t.ports[p].state = s.ports[p].state

section
variable {s t u : State} {q : KeyPos}

theorem AsksServed.of_same (asks : t.asks = s.asks) (ports : t.ports = s.ports) : AsksServed s t where
  asks _ _ h := asks ▸ h
  others _ _ := by rw [ports]

theorem AsksServed.trans (h : AsksServed s t) (k : AsksServed t u) : AsksServed s u where
  asks i a ha := h.asks i a (k.asks i a ha)
  others p away := (k.others p fun i a ha => away i a (h.asks i a ha)).trans (h.others p away)

theorem AsksServed.foldl {α : Type} {g : State → α → State} (hg : ∀ t x, AsksServed t (g t x)) (l : List α) (s : State) :
    AsksServed s (l.foldl g s) := by
  induction l generalizing s with
  | nil => exact .of_same rfl rfl
  | cons x xs ih => exact (hg s x).trans (ih _)

/-- An entry goes and its asker is answered. -/
theorem AsksServed.one {i : AskId} {a : Ask} {st : StatusCode} {d : List Byte} (ask : s.asks[i] = some a)
    (asks : t.asks = upd s.asks i none) (ports : t.ports = (s.answer a.asker st d).ports) : AsksServed s t where
  asks j b hb := (removed_ask (asks ▸ hb)).2
  others p away := by rw [ports, State.answer_other s (away i a ask)]

theorem State.endAsk_served {i : AskId} {a : Ask} (ask : s.asks[i] = some a) (st : StatusCode) :
    AsksServed s (s.endAsk i a st) :=
  .one ask (State.endAsk_asks s i a st) (State.endAsk_ports s i a st)

theorem State.endAskOn_served (s : State) (q : KeyPos) (st : StatusCode) : AsksServed s (s.endAskOn q st) := by
  cases ask : s.askOn q with
  | none =>
    rw [State.endAskOn_none ask]
    exact .of_same rfl rfl
  | some e =>
    rw [State.endAskOn_some (i := e.1) (a := e.2) ask]
    exact State.endAsk_served (State.askOn_mem ask).1 st

theorem State.releasePos_served (s : State) (announce : Bool) (q : KeyPos) : AsksServed s (s.releasePos announce q) := by
  cases ask : s.askOn q with
  | none =>
    obtain ⟨-, asks, ports⟩ := s.releasePos_unasked_moved announce ask
    exact .of_same asks ports
  | some e =>
    obtain ⟨-, asks, ports⟩ := s.releasePos_asked_moved (i := e.1) (a := e.2) announce ask
    exact .one (State.askOn_mem ask).1 asks ports

theorem State.leavePos_served (s : State) (p : Port) (q : KeyPos) : AsksServed s (State.leavePos p s q) := by
  unfold State.leavePos
  split
  · exact s.releasePos_served false q
  · exact .of_same rfl rfl

theorem State.clearPos_served (s : State) (q : KeyPos) : AsksServed s (s.clearPos q) := by
  cases owner : s.table[q].owner with
  | none =>
    rw [State.clearPos_free owner]
    exact .of_same rfl rfl
  | some h =>
    obtain ⟨still, ends⟩ := State.clearPos_ask owner
    cases ask : s.askOn q with
    | none => exact .of_same (still ask).1 (still ask).2
    | some e =>
      obtain ⟨asks, ports⟩ := ends e.1 e.2 ask
      exact .one (State.askOn_mem ask).1 asks ports

theorem State.resetPos_served (s : State) (q : KeyPos) : AsksServed s (s.resetPos q) := by
  by_cases idle : s.table[q].owner = none ∨ s.table[q].hold = .fixed
  · obtain ⟨same, ports⟩ := State.resetPos_idle idle
    exact .of_same same ports
  · obtain ⟨owned, loose⟩ := not_or.mp idle
    obtain ⟨still, ends⟩ := State.resetPos_ask owned loose
    cases ask : s.askOn q with
    | none => exact .of_same (still ask).1 (still ask).2
    | some e =>
      obtain ⟨asks, ports⟩ := ends e.1 e.2 ask
      exact .one (State.askOn_mem ask).1 asks ports

theorem State.grant_served {i : AskId} {a : Ask} (ask : s.asks[i] = some a) :
    AsksServed s (s.grant (some i) a.asker a.holder a.set a.pos) :=
  .one ask (s.grant_asks _ _ _ _ _) (s.grant_ports _ _ _ _ _)

theorem PortUnit.deskReset_emptied_state (u : PortUnit) (now : Time) : (u.deskReset now).emptied.state = u.state :=
  rfl

/-- What follows a walk leaves the asks as they are, and what the ports work on. -/
theorem AsksServed.next (h : AsksServed s t) (asks : u.asks = t.asks) (states : ∀ p : Port, u.ports[p].state = t.ports[p].state) :
    AsksServed s u :=
  h.trans ⟨fun _ _ ha => asks ▸ ha, fun p _ => states p⟩

theorem State.deskReset_served (s : State) : AsksServed s s.deskReset := by
  have walk : AsksServed s (s.overTable State.resetPos) := .foldl State.resetPos_served _ s
  exact walk.next s.deskReset_asks fun p => (congrArg PortUnit.state (s.deskReset_port p)).trans
    (PortUnit.deskReset_emptied_state _ _)

/-- An act makes no new ask, but of a holder that is PRESENT. -/
theorem Act.asks (h : Act s t) (i : AskId) {a : Ask} (ha : t.asks[i] = some a) :
    s.asks[i] = some a ∨ s.presence[a.holder] = .present := by
  have same : t.asks = s.asks → s.asks[i] = some a ∨ s.presence[a.holder] = .present := fun e => .inl (e ▸ ha)
  cases h with
  | endAsk j b st ask => exact .inl ((State.endAsk_served ask st).asks i a ha)
  | hold h q st owned fixed => exact .inl ((State.endAskOn_served (s.setHold h q) q st).asks i a ha)
  | release announce q owned => exact .inl ((s.releasePos_served announce q).asks i a ha)
  | grantEntry j b ask => exact .inl ((State.grant_served ask).asks i a ha)
  | grantNow p h b q w raw working unasked free owned other room => exact same (s.grant_asks _ _ _ _ _)
  | entry j p h b q raw deadline id working valid unasked free owned other hold present room =>
    by_cases e : j = i
    · subst e
      rw [State.setAsk_asks, upd_self] at ha
      obtain rfl := Option.some.inj ha
      exact .inr present
    · rw [State.setAsk_asks, upd_ne _ _ _ _ e] at ha
      exact .inl ha
  | clearTable =>
    have walk : AsksServed s (s.overTable State.clearPos) := .foldl State.clearPos_served _ s
    exact .inl (walk.asks i a ((State.freeGroups_frame _).2.2.2.1 ▸ ha))
  | leave p unasked =>
    have walk : AsksServed s (s.overTable (State.leavePos p)) := .foldl (State.leavePos_served · p) _ s
    exact .inl (walk.asks i a ((State.freeGroupsOf_frame _ p).2.2.2.1 ▸ ha))
  | deskReset => exact .inl (s.deskReset_served.asks i a ha)
  | due q r d period found phase => exact same (s.dueAt_frame q r d period).2.2.2.1
  | lampValue v q owned => exact same (by simp [State.setLampValue])
  | profile j f ok => exact same rfl
  | _ => exact same (by simp)

/-- An act makes no host LAPSED. -/
theorem Act.presence (h : Act s t) (p : Port) (present : s.presence[p] = .present) : t.presence[p] = .present := by
  have same : t.presence = s.presence → t.presence[p] = .present := fun e => by rw [e]; exact present
  have one : ∀ k : Port, t.presence = upd s.presence k .present → t.presence[p] = .present := fun k e => by
    rw [e]
    by_cases o : k = p
    · subst o
      exact upd_self _ _ _
    · rw [upd_ne _ _ _ _ o]
      exact present
  cases h with
  | fall k => exact one k rfl
  | present k => exact one k rfl
  | writePort k m lapse ok =>
    have presence := (s.writePort_ports k m lapse).2.2
    split at presence
    · exact one k presence
    · exact same presence
  | deskReset => exact s.deskReset_presence p
  | clearTable =>
    exact same (Eq.trans (by simp) (State.overTable_keeps State.presence (effect := State.clearPos) (by simp) s))
  | leave k unasked =>
    refine same (Eq.trans (by simp) (State.overTable_keeps State.presence (effect := State.leavePos k) (fun t q => ?_) s))
    unfold State.leavePos
    split <;> simp
  | removal k x c n left m l out txn reading counted queue => exact same (by simp [State.driveNote])
  | due q r d period found phase => exact same (s.dueAt_frame q r d period).2.2.2.2.1
  | lampValue v q owned => exact same (by simp [State.setLampValue])
  | profile i f ok => exact same rfl
  | _ => exact same (by simp)

theorem Act.holdersPresent (h : Act s t) (law : s.HoldersPresent) : t.HoldersPresent := by
  intro i a ha
  obtain old | present := h.asks i ha
  · exact h.presence _ (law i a old)
  · exact h.presence _ present

/-! ## The link enable mask -/

theorem State.workingOnSetLinks_congr (h : t.ports[(0 : Port)].state = s.ports[(0 : Port)].state) :
    t.workingOnSetLinks = s.workingOnSetLinks := by
  rw [Bool.eq_iff_iff, State.workingOnSetLinks_iff, State.workingOnSetLinks_iff]
  simp only [WorkingOn, h]

/-- Port 0 works on SET LINKS still, where asks alone are answered. -/
theorem AsksServed.setLinks (h : AsksServed s t) (law : s.AskLaw) (working : s.workingOnSetLinks = true) :
    t.workingOnSetLinks = true := by
  rw [State.workingOnSetLinks_congr (h.others 0 fun i a ha e => ?_)]
  · exact working
  · obtain ⟨m, p, w, links⟩ := s.workingOnSetLinks_iff.mp working
    obtain ⟨raw, -, asking⟩ := law.working i a ha
    rw [e] at asking
    cases links.symm.trans asking

/-- Port 0 works on SET LINKS still, while a link stands handed a change. -/
theorem Act.setLinks (h : Act s t) (law : s.AskLaw) (ports : s.PortsLaw) (working : s.workingOnSetLinks = true)
    (waits : s.allTaken = false) : t.workingOnSetLinks = true := by
  have served : AsksServed s t → t.workingOnSetLinks = true := fun h => h.setLinks law working
  have kept : t.ports[(0 : Port)].state = s.ports[(0 : Port)].state → t.workingOnSetLinks = true := fun e => by
    rw [State.workingOnSetLinks_congr e]
    exact working
  have same : t.ports = s.ports → t.workingOnSetLinks = true := fun e => kept (by rw [e])
  have one : ∀ (p : Port) (u : PortUnit), t.ports = upd s.ports p u → u.state = s.ports[p].state →
      t.workingOnSetLinks = true := fun p u e state => kept (State.states_upd e state 0)
  cases h with
  | port p u mode state law' =>
    obtain state | idle := state
    · exact one p u rfl state
    · refine kept (congrArg PortUnit.state (upd_ne _ _ _ _ fun z => ?_))
      subst z
      obtain ⟨m, e, w, links⟩ := s.workingOnSetLinks_iff.mp working
      exact idle _ (ports 0) _ links
  | fall p => exact one p _ rfl rfl
  | removal p x c k left n q out txn reading counted queue =>
    exact one p { s.ports[p] with txn := some { x with left := left, reading := .notices true 0, out := out } }
      (by simp [State.driveNote]) rfl
  | emptyQueue p => exact one p s.ports[p].emptied (by simp [State.emptyQueue]) rfl
  | writePort p m lapse ok => exact one p _ (s.writePort_ports p m lapse).1 rfl
  | answer p st d unasked taken =>
    refine kept ?_
    rw [State.answer_other s fun z => ?_]
    rw [taken z working] at waits
    cases waits
  | grantNow p h a q w raw asking unasked free owned other room =>
    refine kept ?_
    rw [s.grant_ports, State.answer_other s fun z => ?_]
    subst z
    obtain ⟨m, e, w, links⟩ := s.workingOnSetLinks_iff.mp working
    cases links.symm.trans asking
  | endAsk i a st ask => exact served (State.endAsk_served ask st)
  | hold h q st owned fixed =>
    exact served ((AsksServed.of_same (s := s) (t := s.setHold h q) rfl rfl).trans (State.endAskOn_served _ q st))
  | release announce q owned => exact served (s.releasePos_served announce q)
  | grantEntry i a ask => exact served (State.grant_served ask)
  | clearTable =>
    have walk : AsksServed s (s.overTable State.clearPos) := .foldl State.clearPos_served _ s
    exact served (walk.trans (.of_same (by simp) (by simp)))
  | leave p unasked =>
    have walk : AsksServed s (s.overTable (State.leavePos p)) := .foldl (State.leavePos_served · p) _ s
    exact served (walk.trans (.of_same (by simp) (by simp)))
  | deskReset => exact served s.deskReset_served
  | due q r d period found phase =>
    obtain ⟨-, -, -, -, -, -, -, -, -, ports, -⟩ := s.dueAt_frame q r d period
    exact same ports
  | lampValue v q owned => exact same (by simp [State.setLampValue])
  | profile j f ok => exact same rfl
  | _ => exact same (by simp)

/-- An act but SET LINKS' own writes no mask. -/
theorem Act.mask (h : Act s t) : t.mask = s.mask ∨ ∃ m e w, s.allTaken = true ∧ s.workingOnSetLinks = true ∧
    t = s.writeLinks m e w := by
  cases h with
  | writeLinks m e w working taken => exact .inr ⟨m, e, w, taken, working, rfl⟩
  | clearTable =>
    exact .inl (Eq.trans (by simp) (State.overTable_keeps State.mask (effect := State.clearPos) (by simp) s))
  | leave p unasked =>
    refine .inl (Eq.trans (by simp) (State.overTable_keeps State.mask (effect := State.leavePos p) (fun t q => ?_) s))
    unfold State.leavePos
    split <;> simp
  | deskReset => exact .inl (s.deskReset_changes .mask (by simp [resetParts]))
  | due q r d period found phase =>
    obtain ⟨-, -, -, -, -, -, -, -, -, -, -, mask, -⟩ := s.dueAt_frame q r d period
    exact .inl mask
  | lampValue v q owned => exact .inl (by simp [State.setLampValue])
  | profile j f ok => exact .inl rfl
  | _ => exact .inl (by simp)

/-- The mask and the links' places in it stand. -/
theorem State.MaskLaw.kept (law : s.MaskLaw) (mask : t.mask = s.mask) (low : t.resetLow = s.resetLow)
    (links : ∀ n : LinkId, t.links[n].handed = s.links[n].handed ∧ (t.links[n].session = .off ↔ s.links[n].session = .off))
    (waits : s.workingOnSetLinks = true → s.allTaken = false → t.workingOnSetLinks = true) : t.MaskLaw := by
  have enabled : ∀ n, t.enabled n = s.enabled n := fun n => by rw [State.enabled, mask, State.enabled]
  refine ⟨fun l n none => ?_, fun n e he => ?_, fun n he => ?_⟩
  · rw [(links n).2, enabled n]
    exact law.settled (low ▸ l) n ((links n).1 ▸ none)
  · rw [(links n).2, enabled n]
    exact law.handed n e ((links n).1 ▸ he)
  · rw [(links n).1] at he
    refine waits (law.waits n he) (Bool.eq_false_iff.mpr fun all => ?_)
    rw [s.allTaken_iff.mp all n] at he
    cases he

/-- A link takes the change that it was handed (R155, R165). -/
theorem State.MaskLaw.takes (law : s.MaskLaw) {n : LinkId} {l : LinkEngine} {e : Bool} (handed : s.links[n].handed = some e)
    (taken : l.handed = none) (session : l.session = .off ↔ e = false) : (s.setLink n l).MaskLaw := by
  have other : ∀ {k : LinkId}, n ≠ k → (s.setLink n l).links[k] = s.links[k] := fun ne => upd_ne _ _ _ _ ne
  have self : (s.setLink n l).links[n] = l := upd_self _ _ _
  refine ⟨fun low k none => ?_, fun k x hx => ?_, fun k hk => ?_⟩
  · by_cases ne : n = k
    · subst ne
      rw [self, session]
      exact (by rw [(law.handed n e handed).1] : s.enabled n = false ↔ e = false).symm
    · rw [other ne] at none ⊢
      exact law.settled low k none
  · by_cases ne : n = k
    · subst ne
      rw [self, taken] at hx
      cases hx
    · rw [other ne] at hx ⊢
      exact law.handed k x hx
  · by_cases ne : n = k
    · subst ne
      rw [self, taken] at hk
      cases hk
    · rw [other ne] at hk
      exact law.waits k hk

/-- SET LINKS hands each link whose place in the mask changes its change (R166, R183). -/
theorem State.MaskLaw.written (law : s.MaskLaw) (low : s.resetLow = false) (m e w : Byte) (taken : s.allTaken = true)
    (working : s.workingOnSetLinks = true) : (s.writeLinks m e w).MaskLaw := by
  have settled : ∀ n : LinkId, s.links[n].session = .off ↔ s.mask.getLsbD n.1 = false := fun n =>
    law.settled low n (s.allTaken_iff.mp taken n)
  refine ⟨fun _ n none => ?_, fun n x hx => ?_, fun n _ => ?_⟩
  · rw [s.writeLinks_link] at none ⊢
    have none : handedChange s.mask m n = .none := none
    have same : s.mask.getLsbD n.1 = m.getLsbD n.1 := by
      unfold handedChange at none
      split at none
      next e => exact e
      next => cases none
    exact (settled n).trans (by rw [same]; rfl)
  · rw [s.writeLinks_link] at hx ⊢
    have hx : handedChange s.mask m n = some x := hx
    unfold handedChange at hx
    split at hx
    next => cases hx
    next differs =>
      obtain rfl := Option.some.inj hx
      refine ⟨rfl, (settled n).trans ?_⟩
      generalize s.mask.getLsbD n.1 = o at differs
      generalize m.getLsbD n.1 = o' at differs
      cases o <;> cases o' <;> simp at differs ⊢
  · rw [← working]
    exact State.workingOnSetLinks_congr rfl

theorem LinkEngine.resynced_place (l : LinkEngine) :
    l.resynced.handed = l.handed ∧ (l.resynced.session = .off ↔ l.session = .off) := by
  unfold LinkEngine.resynced
  cases hs : l.session with
  | up i last start =>
    dsimp only
    split <;> exact ⟨rfl, fun e => (by cases e), fun e => (by cases e)⟩
  | off | probing | holdoff | syncing => simp [hs]

/-- An act leaves the changes handed over and the links in OFF as they are, but for a link that takes its change and for
SET LINKS. -/
theorem Act.handed (h : Act s t) :
    (∀ n : LinkId, t.links[n].handed = s.links[n].handed ∧ (t.links[n].session = .off ↔ s.links[n].session = .off)) ∨
    (∃ n l e, t = s.setLink n l ∧ s.links[n].handed = some e ∧ l.handed = none ∧ (l.session = .off ↔ e = false)) ∨
    ∃ m e w, s.allTaken = true ∧ s.workingOnSetLinks = true ∧ t = s.writeLinks m e w := by
  have same : t.links = s.links →
      ∀ n : LinkId, t.links[n].handed = s.links[n].handed ∧ (t.links[n].session = .off ↔ s.links[n].session = .off) :=
    fun e n => by rw [e]; exact ⟨rfl, Iff.rfl⟩
  cases h with
  | link k l change =>
    refine .inl fun n => ?_
    rw [State.setLink_links]
    by_cases e : k = n
    · subst e
      rw [upd_self]
      exact ⟨change.handed, change.off⟩
    · rw [upd_ne _ _ _ _ e]
      exact ⟨rfl, Iff.rfl⟩
  | enable k l law handed taken on session =>
    exact .inr (.inl ⟨k, l, true, rfl, handed, taken, fun e => absurd e on, fun e => (by cases e)⟩)
  | disable k l law handed taken off session => exact .inr (.inl ⟨k, l, false, rfl, handed, taken, fun _ => rfl, fun _ => off⟩)
  | writeLinks m e w working taken => exact .inr (.inr ⟨m, e, w, taken, working, rfl⟩)
  | deskReset =>
    refine .inl fun n => ?_
    rw [s.deskReset_link n]
    exact s.links[n].resynced_place
  | clearTable =>
    exact .inl (same (Eq.trans (by simp) (State.overTable_keeps State.links (effect := State.clearPos) (by simp) s)))
  | leave p unasked =>
    refine .inl (same (Eq.trans (by simp) (State.overTable_keeps State.links (effect := State.leavePos p) (fun t q => ?_) s)))
    unfold State.leavePos
    split <;> simp
  | due q r d period found phase =>
    obtain ⟨-, -, -, -, -, -, -, -, links, -⟩ := s.dueAt_frame q r d period
    exact .inl (same links)
  | lampValue v q owned => exact .inl (same (by simp [State.setLampValue]))
  | profile j f ok => exact .inl (same rfl)
  | _ => exact .inl (same (by simp))

/-- Every act keeps the links in accord with the mask (R155, R166). -/
theorem Act.maskLaw (h : Act s t) (law : s.MaskLaw) (low : s.resetLow = false) (asks : s.AskLaw) (ports : s.PortsLaw) :
    t.MaskLaw := by
  obtain links | ⟨n, l, e, rfl, handed, taken, session⟩ | ⟨m, e, w, taken, working, rfl⟩ := h.handed
  · obtain mask | ⟨m, e, w, taken, working, rfl⟩ := h.mask
    · exact law.kept mask h.timeless.resetLow links fun k a => h.setLinks asks ports k a
    · exact law.written low m e w taken working
  · exact law.takes handed taken session
  · exact law.written low m e w taken working

/-! ## The profiles -/

theorem Act.profileLaw (h : Act s t) (law : ∀ i : ProfileId, ProfileLaw s.profiles[i]) (i : ProfileId) :
    ProfileLaw t.profiles[i] := by
  have same : t.profiles = s.profiles → ProfileLaw t.profiles[i] := fun e => by rw [e]; exact law i
  cases h with
  | profile k f ok =>
    show ProfileLaw (upd s.profiles k f)[i]
    by_cases e : k = i
    · subst e
      rw [upd_self]
      exact ok
    · rw [upd_ne _ _ _ _ e]
      exact law i
  | clearTable =>
    exact same (Eq.trans (by simp) (State.overTable_keeps State.profiles (effect := State.clearPos) (by simp) s))
  | leave p unasked =>
    refine same (Eq.trans (by simp) (State.overTable_keeps State.profiles (effect := State.leavePos p) (fun t q => ?_) s))
    unfold State.leavePos
    split <;> simp
  | deskReset =>
    rw [s.deskReset_profiles]
    exact defaultProfiles_law i
  | due q r d period found phase => exact same (s.dueAt_frame q r d period).2.1
  | lampValue v q owned => exact same (by simp [State.setLampValue])
  | _ => exact same (by simp)

end

end Sys2Proof.Machine
end

section
/-! PROOF. The form of the held records through every act (R62, R88, R89). -/

namespace Sys2Proof.Machine

/-- Every held record has its form. -/
def State.FormLaw (s : State) : Prop :=
  ∀ r ∈ s.held, HeldForm r

section
variable {s t : State}

theorem State.FormLaw.withdraw (law : s.FormLaw) (announce : Bool) (q : KeyPos) : (s.withdraw announce q).FormLaw := by
  obtain ⟨same, -⟩ | held := s.withdraw_cases announce q
  · intro r hr
    exact law r (same ▸ hr)
  · intro r hr
    rw [held] at hr
    obtain ⟨x, hx, rfl⟩ := List.mem_map.mp hr
    split
    · exact (law x hx).withdrawn
    · exact law x hx

theorem State.FormLaw.releasePos (law : s.FormLaw) (announce : Bool) (q : KeyPos) : (s.releasePos announce q).FormLaw := by
  intro r hr
  rw [State.releasePos_held] at hr
  exact law.withdraw announce q r hr

theorem State.FormLaw.grant (law : s.FormLaw) (e : Option AskId) (p h : Port) (a : AttrSet) (q : KeyPos) :
    (s.grant e p h a q).FormLaw := by
  intro r hr
  rw [State.grant_held] at hr
  exact law.withdraw true q r hr

theorem State.FormLaw.clearPos (law : s.FormLaw) (q : KeyPos) : (s.clearPos q).FormLaw := by
  intro r hr
  rw [State.clearPos_held] at hr
  split at hr
  · exact law r hr
  · exact law.withdraw true q r hr

theorem ProfileLaw.tenths {f : Profile} (law : ProfileLaw f) :
    (10 ≤ tenths f.floor ∧ tenths f.floor ≤ 2550) ∧ 10 ≤ tenths f.period ∧ tenths f.period ≤ 2550 := by
  obtain ⟨-, -, floor, order⟩ := law
  have period := f.period.isLt
  simp only [Machine.tenths, Config.repeatUnit]
  omega

/-- A period stays within 10 to 2550 ms as it is halved (R89). -/
theorem ProfileLaw.halvedPeriod {f : Profile} (law : ProfileLaw f) (n : Nat) {x : Nat} (within : 10 ≤ x ∧ x ≤ 2550) :
    10 ≤ halvedPeriod f n x ∧ halvedPeriod f n x ≤ 2550 := by
  obtain ⟨floor, -⟩ := law.tenths
  unfold Machine.halvedPeriod
  split
  · omega
  · exact within

theorem raiseCount_le {n : Nat} (h : n ≤ 65535) : raiseCount n ≤ 65535 := by
  unfold raiseCount
  split
  next less =>
    simp only [Config.maxCount] at less
    omega
  next => exact h

theorem HeldForm.repeated {r : HeldRecord} (form : HeldForm r) {f : Profile} (law : ProfileLaw f) (d : Time) {period : Nat}
    (closing : r.closingDue = true) (within : 10 ≤ period ∧ period ≤ 2550) : HeldForm (r.repeated f d period) where
  closing := form.closing
  due _ := closing
  period x hx := by
    obtain rfl := Option.some.inj hx
    exact law.halvedPeriod _ within
  count := raiseCount_le form.count

theorem HeldForm.stopped {r : HeldRecord} (form : HeldForm r) : HeldForm r.stopped where
  closing := form.closing
  due e := absurd rfl e
  period x hx := by cases hx
  count := form.count

/-- A due leaves each record its form: the one in DELAY or REPEAT has closing due, and its period stays within its
bounds (R62, R88, R89). -/
theorem State.FormLaw.dueAt (law : s.FormLaw) (one : s.HeldLaw) (profiles : ∀ i : ProfileId, ProfileLaw s.profiles[i])
    {q : KeyPos} {r : HeldRecord} {d : Time} {period : Profile → Nat} (found : s.heldAt q = some r)
    (phase : (r.phase = .delay d ∧ period = fun f => Machine.tenths f.period) ∨
      ∃ k, r.phase = .repeating d k ∧ period = fun _ => k) : (s.dueAt q r d period).FormLaw := by
  obtain ⟨mem, here⟩ := State.heldAt_mem found
  have alone : ∀ x ∈ s.held, x.pos = q → x = r := fun x hx e => by
    have := State.heldAt_of_mem one hx
    rw [e, found] at this
    exact (Option.some.inj this).symm
  have form := law r mem
  have closing : r.closingDue = true := form.due <| by
    obtain ⟨e, -⟩ | ⟨k, e, -⟩ := phase
    all_goals
      rw [e]
      exact fun h => by cases h
  have within : ∀ i : ProfileId, 10 ≤ period s.profiles[i] ∧ period s.profiles[i] ≤ 2550 := fun i => by
    obtain ⟨-, rfl⟩ | ⟨k, e, rfl⟩ := phase
    · exact (profiles i).tenths.2
    · exact form.period k (by rw [e]; rfl)
  obtain ⟨f, formed, held⟩ : ∃ f : HeldRecord → HeldRecord, HeldForm (f r) ∧
      (s.dueAt q r d period).held = s.held.map (fun x => if x.pos = q then f x else x) := by
    unfold State.dueAt
    split
    next i o _ _ => exact ⟨fun x => x.repeated s.profiles[i] d (period s.profiles[i]), form.repeated (profiles i) d closing
      (within i), by simp [State.takeRepeat]⟩
    next => exact ⟨HeldRecord.stopped, form.stopped, rfl⟩
  intro x hx
  rw [held] at hx
  obtain ⟨y, hy, rfl⟩ := List.mem_map.mp hx
  split
  next e =>
    rw [alone y hy e]
    exact formed
  next => exact law y hy

/-- Every act keeps the form of the held records. -/
theorem Act.formLaw (h : Act s t) (law : s.FormLaw) (one : s.HeldLaw) (profiles : ∀ i : ProfileId, ProfileLaw s.profiles[i]) :
    t.FormLaw := by
  have same : t.held = s.held → t.FormLaw := fun e r hr => law r (e ▸ hr)
  cases h with
  | release announce q owned => exact law.releasePos announce q
  | grantEntry i a ask => exact law.grant _ _ _ _ _
  | grantNow p h a q w raw working unasked free owned other room => exact law.grant _ _ _ _ _
  | clearTable =>
    have walk : (s.overTable State.clearPos).FormLaw := State.overTable_induct (fun t q h => h.clearPos q) law
    exact fun r hr => walk r ((State.freeGroups_frame _).2.1 ▸ hr)
  | leave p unasked =>
    have walk : (s.overTable (State.leavePos p)).FormLaw := State.overTable_induct (fun t q h => by
      unfold State.leavePos
      split
      · exact h.releasePos false q
      · exact h) law
    exact fun r hr => walk r ((State.freeGroupsOf_frame _ p).2.1 ▸ hr)
  | deskReset =>
    intro r hr
    rw [s.deskReset_held] at hr
    exact absurd hr List.not_mem_nil
  | due q r d period found phase => exact law.dueAt one profiles found phase
  | press resync q session =>
    intro r hr
    obtain same | ⟨-, -, x, held, -, -, form⟩ := s.pressKey_held_cases resync q
    · exact law r (same ▸ hr)
    · rw [held] at hr
      obtain old | new := List.mem_append.mp hr
      · exact law r old
      · rw [List.mem_singleton.mp new]
        exact form
  | releaseKey resync lost q =>
    intro r hr
    rw [s.releaseKey_held resync lost q] at hr
    exact law r (List.mem_filter.mp hr).1
  | lampValue v q owned => exact same (by simp [State.setLampValue])
  | profile i f ok => exact same rfl
  | _ => exact same (by simp)

end

end Sys2Proof.Machine
end

section
/-! PROOF. The lamps follow the bindings through every act (R125, R126, R128). -/

namespace Sys2Proof.Machine

section
variable {s t u : State} {q k : KeyPos} {l : List KeyPos}

/-- The lamps follow what they follow at the positions drawn, and stand as it does elsewhere. -/
theorem State.LampLaw.redrawn (law : s.LampLaw) (drawn : Redrawn s t l) (sent : t.sent = s.sent)
    (others : ∀ k ∉ l, t.lampFor k = s.lampFor k) : t.LampLaw where
  derived k := by
    rw [drawn.1 k]
    split
    next => rfl
    next other => rw [law.derived k, others k other]
  dirty b := by
    rw [drawn.2 b]
    split
    next => rfl
    next away =>
      have same : ∀ i : Fin 8, t.derived[lampPos b i] = s.derived[lampPos b i] := fun i => by
        rw [drawn.1 (lampPos b i), if_neg fun h => away ?_]
        rw [← blockOf_lampPos b i]
        exact List.mem_map_of_mem h
      rw [law.dirty b]
      simp only [dirtyFlag, sent, same]

theorem State.LampLaw.of_same (law : s.LampLaw) (derived : t.derived = s.derived) (dirty : t.dirty = s.dirty)
    (sent : t.sent = s.sent) (lamp : ∀ k, t.lampFor k = s.lampFor k) : t.LampLaw :=
  law.redrawn (.nil derived dirty) sent fun k _ => lamp k

/-- The last stage of an event draws the lamp of the one position it touches. -/
theorem State.LampLaw.drawnAt (law : s.LampLaw) (eq : t = u.rederive q) (derived : u.derived = s.derived)
    (dirty : u.dirty = s.dirty) (sent : u.sent = s.sent) (others : ∀ k, k ≠ q → t.lampFor k = s.lampFor k) : t.LampLaw := by
  subst eq
  exact law.redrawn (State.rederive_redrawn q derived dirty) ((State.rederive_frame _ _).2.2.2.2.2.2.2.2.1.trans sent)
    fun k hk => others k fun e => hk (List.mem_singleton.mpr e)

theorem Moved.lampFor {b : Binding} (h : Moved s t q b) (held : t.held.map HeldRecord.pos = s.held.map HeldRecord.pos)
    (other : k ≠ q) : t.lampFor k = s.lampFor k := by
  have same : t.table[k] = s.table[k] := by rw [h.table, upd_ne _ _ _ _ other.symm]
  refine State.lampFor_follows (by rw [same]) (by rw [same]) (by rw [same]) (by rw [same]) (State.heldAt_isSome_congr held k)
    fun g _ => ?_
  rw [h.selects g k]
  exact ⟨And.left, fun h => ⟨h, fun e => absurd e other⟩⟩

/-- A position is written, and no membership. -/
theorem State.lampFor_away {b : Binding} (table : t.table = upd s.table q b)
    (held : t.held.map HeldRecord.pos = s.held.map HeldRecord.pos) (groups : t.groups = s.groups) (other : k ≠ q) :
    t.lampFor k = s.lampFor k := by
  have same : t.table[k] = s.table[k] := by rw [table, upd_ne _ _ _ _ other.symm]
  refine State.lampFor_follows (by rw [same]) (by rw [same]) (by rw [same]) (by rw [same]) (State.heldAt_isSome_congr held k)
    fun g _ => ?_
  rw [State.Selects, State.Selects, groups]

theorem State.lampFor_parts (table : t.table = s.table) (held : t.held.map HeldRecord.pos = s.held.map HeldRecord.pos)
    (selects : ∀ g, s.table[k].cls = .select g → (t.Selects g k ↔ s.Selects g k)) : t.lampFor k = s.lampFor k :=
  State.lampFor_follows (by rw [table]) (by rw [table]) (by rw [table]) (by rw [table]) (State.heldAt_isSome_congr held k)
    selects

/-- One group is selected anew, or its selection becomes none. -/
theorem State.selects_upd {g : GroupId} {x : SelGroup} {y : Option KeyPos} (hx : s.groups[g] = some x)
    (groups : t.groups = upd s.groups g (some { x with selected := y })) (same : y = some k ↔ x.selected = some k)
    (i : GroupId) : t.Selects i k ↔ s.Selects i k := by
  by_cases e : g = i
  · subst e
    simp only [State.Selects, groups, upd_self, hx, Option.some.injEq, exists_eq_left', same]
  · rw [State.Selects, State.Selects, groups, upd_ne _ _ _ _ e]

/-! ## Releases, grants, claims -/

theorem State.LampLaw.releasePos (law : s.LampLaw) (announce : Bool) (q : KeyPos) : (s.releasePos announce q).LampLaw := by
  obtain ⟨u, eq, derived, dirty, sent⟩ := s.releasePos_rederives announce q
  have held := s.releasePos_places announce q
  refine law.drawnAt eq derived dirty sent fun k other => ?_
  cases ask : s.askOn q with
  | none => exact (s.releasePos_unasked_moved announce ask).1.lampFor held other
  | some e => exact (s.releasePos_asked_moved (i := e.1) (a := e.2) announce ask).1.lampFor held other

theorem State.LampLaw.grant (law : s.LampLaw) (e : Option AskId) (p h : Port) (a : AttrSet) (q : KeyPos) :
    (s.grant e p h a q).LampLaw := by
  refine law.drawnAt (t := s.grant e p h a q) (q := q) (u := _) rfl (by simp) (by simp) (by simp) fun k other => ?_
  exact (State.grant_moved e p h a).lampFor (by rw [State.grant_held, State.withdraw_places]) other

theorem State.LampLaw.acquire (law : s.LampLaw) (p : Port) (a : AttrSet) (free : s.table[q].cls.group? = none) :
    (s.acquire p a q).LampLaw := by
  refine law.drawnAt (t := s.acquire p a q) (q := q) (u := _) rfl (by simp) (by simp) (by simp) fun k other => ?_
  exact (State.acquire_moved p a free).lampFor (by simp) other

theorem State.replacePos_moved (a : AttrSet) (q : KeyPos) (differs : s.table[q].cls.group? ≠ a.cls.group?) :
    Moved s (s.replacePos a q) q (s.table[q].replace a) where
  table := s.replacePos_table a q
  group g := by
    rw [s.replacePos_group a q g, if_neg differs, moved_map, Binding.replace_group]
    by_cases old : s.table[q].cls.group? = some g
    · have new : a.cls.group? ≠ some g := fun e => differs (old.trans e.symm)
      simp only [old, new, if_true, if_false]
    · simp only [old, if_false]

theorem State.replacePos_stays (a : AttrSet) (q : KeyPos) (same : s.table[q].cls.group? = a.cls.group?) :
    (s.replacePos a q).groups = s.groups :=
  eq_of_entries fun k => by rw [s.replacePos_group a q k, if_pos same]

theorem State.replacePos_rederives (s : State) (a : AttrSet) (q : KeyPos) :
    ∃ u : State, s.replacePos a q = u.rederive q ∧ u.derived = s.derived ∧ u.dirty = s.dirty ∧ u.sent = s.sent := by
  unfold State.replacePos
  split
  · exact ⟨_, rfl, rfl, rfl, rfl⟩
  · exact ⟨_, rfl, by simp⟩

theorem State.LampLaw.replacePos (law : s.LampLaw) (a : AttrSet) (q : KeyPos) : (s.replacePos a q).LampLaw := by
  obtain ⟨u, eq, derived, dirty, sent⟩ := s.replacePos_rederives a q
  refine law.drawnAt eq derived dirty sent fun k other => ?_
  by_cases same : s.table[q].cls.group? = a.cls.group?
  · exact State.lampFor_away (s.replacePos_table a q) (by simp) (State.replacePos_stays a q same) other
  · exact (State.replacePos_moved a q same).lampFor (by simp) other

theorem State.LampLaw.clearPos (law : s.LampLaw) (q : KeyPos) : (s.clearPos q).LampLaw := by
  cases owner : s.table[q].owner with
  | none => rwa [State.clearPos_free owner]
  | some h =>
    have table := s.clearPos_table q
    rw [if_neg (by rw [owner]; exact Option.some_ne_none h)] at table
    refine law.drawnAt (State.clearPos_owned owner) (by simp [State.stripped]) (by simp [State.stripped])
      (by simp [State.stripped]) fun k other => ?_
    exact State.lampFor_away table (s.clearPos_places q) (by simp) other

/-! ## The event engine -/

theorem State.pressKey_lampFor (resync : Bool) (other : k ≠ q)
    (selects : ∀ g, (s.pressKey resync q).Selects g k ↔ s.Selects g k) : (s.pressKey resync q).lampFor k = s.lampFor k := by
  have same : (s.pressKey resync q).table[k] = s.table[k] := by
    obtain same | ⟨-, turned⟩ := s.pressKey_table resync q
    · rw [same]
    · rw [turned, upd_ne _ _ _ _ other.symm]
  refine State.lampFor_follows (by rw [same]) (by rw [same]) (by rw [same]) (by rw [same]) ?_ fun g _ => selects g
  rw [Bool.eq_iff_iff, State.heldAt_isSome, State.heldAt_isSome]
  obtain same | ⟨-, -, r, held, here, -⟩ := s.pressKey_held_cases resync q
  · rw [same]
  · rw [held, List.map_append, List.mem_append, List.map_singleton, List.mem_singleton, here]
    exact ⟨fun h => h.resolve_right other, .inl⟩

/-- From `s` to `t` lamps are drawn, those of all positions among them whose lamp should change. -/
def LampsFollow (s t : State) : Prop :=
  ∃ l, Redrawn s t l ∧ ∀ k ∉ l, t.lampFor k = s.lampFor k

theorem LampsFollow.of_same (derived : t.derived = s.derived) (dirty : t.dirty = s.dirty)
    (lamp : ∀ k, t.lampFor k = s.lampFor k) : LampsFollow s t :=
  ⟨[], .nil derived dirty, fun k _ => lamp k⟩

theorem LampsFollow.drawnAt (eq : t = u.rederive q) (derived : u.derived = s.derived) (dirty : u.dirty = s.dirty)
    (others : ∀ k, k ≠ q → t.lampFor k = s.lampFor k) : LampsFollow s t :=
  ⟨[q], eq ▸ State.rederive_redrawn q derived dirty, fun k hk => others k fun e => hk (List.mem_singleton.mpr e)⟩

theorem LampsFollow.lampLaw (h : LampsFollow s t) (law : s.LampLaw) (sent : t.sent = s.sent) : t.LampLaw := by
  obtain ⟨_, drawn, others⟩ := h
  exact law.redrawn drawn sent others

/-- Lamps that followed their bindings still do. -/
theorem LampsFollow.derived (h : LampsFollow s t) (lit : ∀ k : KeyPos, s.derived[k] = s.lampFor k) (k : KeyPos) :
    t.derived[k] = t.lampFor k := by
  obtain ⟨l, drawn, others⟩ := h
  rw [drawn.1 k]
  split
  next => rfl
  next away => rw [lit k, others k away]

/-- A press that draws its key, and every other position whose selection it changes. -/
theorem LampsFollow.pressed (resync : Bool) (drawn : Redrawn s (s.pressKey resync q) l) (here : q ∈ l)
    (selects : ∀ k ∉ l, ∀ g, (s.pressKey resync q).Selects g k ↔ s.Selects g k) : LampsFollow s (s.pressKey resync q) :=
  ⟨l, drawn, fun _ away => State.pressKey_lampFor resync (fun e => away (e ▸ here)) (selects _ away)⟩

/-- A press draws the lamp of its key, and that of the position whose selection it takes. -/
theorem State.pressKey_lampsFollow (s : State) (resync : Bool) (q : KeyPos) : LampsFollow s (s.pressKey resync q) := by
  by_cases held : ∃ r ∈ s.held, r.pos = q
  · rw [State.pressKey_held held]
    exact .of_same rfl rfl fun _ => rfl
  have fresh : ∀ r ∈ s.held, r.pos ≠ q := fun r hr e => held ⟨r, hr, e⟩
  have self : q ∈ [q] := List.mem_singleton_self q
  have same : (s.pressKey resync q).groups = s.groups → ∀ k ∉ [q], ∀ g, (s.pressKey resync q).Selects g k ↔ s.Selects g k :=
    fun e k _ g => by rw [State.Selects, State.Selects, e]
  by_cases room : s.held.length < 16
  · cases owner : s.table[q].owner with
    | none =>
      have eq := State.pressKey_unowned fresh room owner resync
      refine LampsFollow.pressed resync (l := [q]) ?_ self (same ?_)
      · rw [eq]
        exact State.rederive_redrawn q rfl rfl
      · rw [eq]
        simp [State.withNew]
    | some h =>
      cases group : s.table[q].cls.group? with
      | none =>
        obtain ⟨-, -, -, drawn, changes⟩ := State.pressKey_opens fresh room owner group resync
        exact LampsFollow.pressed resync drawn self (same (changes .groups (by simp)))
      | some g =>
        have select := KeyClass.eq_select.mp group
        have eq := State.pressKey_select fresh room owner select resync
        cases hg : s.groups[g] with
        | none =>
          have hg : (s.withNew q resync).groups[g] = none := hg
          have still : (s.withNew q resync).pressSelect q h g resync = s.withNew q resync := by
            simp only [State.pressSelect, hg]
          rw [still] at eq
          refine LampsFollow.pressed resync (l := [q]) ?_ self (same ?_)
          · rw [eq]
            exact State.rederive_redrawn q rfl rfl
          · rw [eq]
            simp [State.withNew]
        | some x =>
          have hg' : (s.withNew q resync).groups[g] = some x := hg
          cases sel : x.selected with
          | none =>
            rw [State.pressSelect_first hg' sel] at eq
            refine LampsFollow.pressed resync (l := [q]) ?_ self fun k away => ?_
            · rw [eq]
              exact State.rederive_redrawn q (by simp [State.withNew]) (by simp [State.withNew])
            · refine State.selects_upd (y := some q) hg (by rw [eq]; simp [State.withNew]) ⟨fun e => absurd ?_ away, fun e => ?_⟩
              · exact List.mem_singleton.mpr (Option.some.inj e).symm
              · rw [sel] at e
                cases e
          | some old =>
            by_cases other : old = q
            · subst other
              cases mode : x.mode with
              | strict =>
                rw [State.pressSelect_strict hg' sel mode] at eq
                refine LampsFollow.pressed resync (l := [old]) ?_ self (same ?_)
                · rw [eq]
                  exact State.rederive_redrawn old rfl rfl
                · rw [eq]
                  simp [State.withNew]
              | loose =>
                rw [State.pressSelect_loose hg' sel mode] at eq
                refine LampsFollow.pressed resync (l := [old]) ?_ self fun k away => ?_
                · rw [eq]
                  exact State.rederive_redrawn old (by simp [State.withNew]) (by simp [State.withNew])
                · refine State.selects_upd (y := none) hg (by rw [eq]; simp [State.withNew]) ⟨fun e => (by cases e), fun e => absurd ?_ away⟩
                  rw [sel] at e
                  exact List.mem_singleton.mpr (Option.some.inj e).symm
            · rw [State.pressSelect_change hg' sel other] at eq
              refine LampsFollow.pressed resync (l := [old, q]) ?_ (by simp) fun k away => ?_
              · rw [eq]
                exact ((Redrawn.nil (by simp [State.withNew]) (by simp [State.withNew])).rederive old).rederive q
              · obtain ⟨notOld, notHere⟩ : k ≠ old ∧ k ≠ q := by simpa using away
                refine State.selects_upd (y := some q) hg (by rw [eq]; simp [State.withNew])
                  ⟨fun e => absurd (Option.some.inj e).symm notHere, fun e => absurd ?_ notOld⟩
                exact (Option.some.inj (sel.symm.trans e)).symm
  · have full : 16 ≤ s.held.length := by omega
    cases owner : s.table[q].owner with
    | none =>
      rw [State.pressKey_full_unowned fresh full owner]
      exact .of_same rfl rfl fun _ => rfl
    | some h =>
      rw [State.pressKey_full_owned fresh full owner]
      exact .of_same (by simp) (by simp) fun k => State.lampFor_congr k (by simp) (by simp) (by simp)

theorem State.releaseKey_lampsFollow (s : State) (resync lost : Bool) (q : KeyPos) :
    LampsFollow s (s.releaseKey resync lost q) := by
  cases found : s.heldAt q with
  | none =>
    rw [State.releaseKey_absent (State.heldAt_none.mp found)]
    exact .of_same rfl rfl fun _ => rfl
  | some r =>
    have removed : ∀ k : KeyPos, k ≠ q → (s.releaseKey resync lost q).lampFor k = s.lampFor k := fun k other => by
      refine State.lampFor_follows (by simp) (by simp) (by simp) (by simp) ?_ fun g _ => ?_
      · rw [Bool.eq_iff_iff, State.heldAt_isSome, State.heldAt_isSome, s.releaseKey_held resync lost q]
        simp only [List.mem_map, List.mem_filter, decide_eq_true_eq]
        refine ⟨fun ⟨x, ⟨hx, _⟩, e⟩ => ⟨x, hx, e⟩, fun ⟨x, hx, e⟩ => ⟨x, ⟨hx, fun h => other ?_⟩, e⟩⟩
        exact e.symm.trans h
      · rw [State.Selects, State.Selects]
        simp
    have owed : ∀ o, r.openedTo = some o → r.closingDue = true → LampsFollow s (s.releaseKey resync lost q) := fun o opened closing =>
      .drawnAt (State.releaseKey_owed found opened closing resync lost) (by simp [State.removeHeld])
        (by simp [State.removeHeld]) removed
    have silent : r.openedTo = none ∨ r.closingDue = false → LampsFollow s (s.releaseKey resync lost q) := fun h =>
      .drawnAt (State.releaseKey_silent found h resync lost) rfl rfl removed
    cases opened : r.openedTo with
    | none => exact silent (.inl opened)
    | some o =>
      cases closing : r.closingDue with
      | false => exact silent (.inr closing)
      | true => exact owed o opened closing

/-! ## Whole-table events -/

/-- LEAVE's groups have no member when they become FREE (R37). -/
theorem LeaveWalk.lampFor {p : Port} (w : LeaveWalk p (List.finRange 1024) t) (k : KeyPos) :
    (t.freeGroupsOf p).lampFor k = t.lampFor k := by
  have left : t.table[k].owner = some p → t.table[k].hold = .fixed := w.left k (List.mem_finRange k)
  refine State.lampFor_parts (by simp) (by simp) fun g cls => ?_
  obtain ⟨x, hx, owner⟩ := w.yields.1.named k g (KeyClass.eq_select.mpr cls)
  have other : x.owner ≠ p := fun e => by
    have none := ((w.bindings k).fixed (left (owner.trans (congrArg some e)))).2
    rw [cls] at none
    cases none
  have group : (t.freeGroupsOf p).groups[g] = t.groups[g] := by
    rw [t.freeGroupsOf_group p g, hx]
    exact if_neg other
  rw [State.Selects, State.Selects, group]

theorem State.LampLaw.leave (law : s.LampLaw) (yields : s.Yields) (bindings : s.BindingsLaw) {p : Port}
    (unasked : s.Unasked p) : ((s.overTable (State.leavePos p)).freeGroupsOf p).LampLaw := by
  have walk := yields.leaveWalk bindings unasked
  have lamps : (s.overTable (State.leavePos p)).LampLaw := State.overTable_induct (fun t q h => by
    unfold State.leavePos
    split
    · exact h.releasePos false q
    · exact h) law
  exact lamps.of_same (by simp) (by simp) (by simp) walk.lampFor

theorem State.LampLaw.clearTable (law : s.LampLaw) (asks : s.AskLaw) : (s.overTable State.clearPos).freeGroups.LampLaw := by
  have lamps : (s.overTable State.clearPos).LampLaw := State.overTable_induct (fun t q h => h.clearPos q) law
  obtain ⟨table, -⟩ := clear_walk_asks asks
  refine lamps.of_same (by simp) (by simp) (by simp) fun k => ?_
  have free : (s.overTable State.clearPos).table[k].owner = none := by
    rw [table k, if_pos (List.mem_finRange k)]
    unfold Binding.cleared
    split
    next e => exact e
    next => rfl
  rw [State.lampFor_unowned free, State.lampFor_unowned (by rw [(State.freeGroups_frame _).1]; exact free)]

theorem panelOf_lampPos (b : Fin 128) (i : Fin 8) (n : LinkId) : panelOf (lampPos b i) = n ↔ b.1 / 16 = n.1 := by
  have := i.2
  simp only [panelOf, lampPos, Fin.ext_iff]
  omega

/-- The sent states of a panel are UNKNOWN and its blocks dirty (R129). -/
theorem State.LampLaw.forgotten (law : s.LampLaw) {n : LinkId} (derived : t.derived = s.derived)
    (lamp : ∀ k, t.lampFor k = s.lampFor k) (dirty : ∀ b : Fin 128, t.dirty[b] = if b.1 / 16 = n.1 then true else s.dirty[b])
    (sent : ∀ k : KeyPos, t.sent[k] = if panelOf k = n then none else s.sent[k]) : t.LampLaw where
  derived k := by rw [derived, lamp k, law.derived k]
  dirty b := by
    rw [dirty b]
    split
    next here =>
      refine ((dirtyFlag_iff _ _ b).mpr ⟨0, ?_⟩).symm
      rw [sent (lampPos b 0), if_pos ((panelOf_lampPos b 0 n).mpr here)]
      exact fun e => by cases e
    next away =>
      have same : ∀ i : Fin 8, t.sent[lampPos b i] = s.sent[lampPos b i] := fun i => by
        rw [sent (lampPos b i), if_neg fun e => away ((panelOf_lampPos b i n).mp e)]
      rw [law.dirty b]
      simp only [dirtyFlag, same, derived]

/-- Every sent state is UNKNOWN and every block dirty. -/
theorem State.lampLaw_of_unknown (derived : ∀ k : KeyPos, s.derived[k] = s.lampFor k)
    (sent : ∀ k : KeyPos, s.sent[k] = none) (dirty : ∀ b : Fin 128, s.dirty[b] = true) : s.LampLaw where
  derived := derived
  dirty b := by
    rw [dirty b]
    refine ((dirtyFlag_iff _ _ b).mpr ⟨0, ?_⟩).symm
    rw [sent (lampPos b 0)]
    exact fun e => by cases e

theorem State.deskReset_lampLaw (s : State) : s.deskReset.LampLaw := by
  obtain ⟨derived, sent, dirty⟩ := s.deskReset_lamps
  exact State.lampLaw_of_unknown derived sent dirty

/-- An acceptance writes the sent states of its block (R132). -/
theorem State.LampLaw.writeSent (law : s.LampLaw) (n : LinkId) (a : Acceptance) : (s.writeSent n a).LampLaw where
  derived k := law.derived k
  dirty b := by
    obtain ⟨-, other, dirty⟩ := s.writeSent_spec n a
    rw [dirty]
    by_cases e : panelBlock n a.block = b
    · subst e
      rw [upd_self]
      rfl
    · have same : ∀ i : Fin 8, (s.writeSent n a).sent[lampPos b i] = s.sent[lampPos b i] := fun i =>
        other (lampPos b i) fun h => e ((blockOf_lampPos b i).symm.trans h).symm
      rw [upd_ne _ _ _ _ e, law.dirty b]
      simp only [dirtyFlag, same]
      rfl

/-! ## Every act -/

theorem Act.lampLaw (h : Act s t) (law : s.LampLaw) (yields : s.Yields) (bindings : s.BindingsLaw) : t.LampLaw := by
  have same : t.derived = s.derived → t.dirty = s.dirty → t.sent = s.sent → t.table = s.table → t.groups = s.groups →
      t.held = s.held → t.LampLaw := fun derived dirty sent table groups held =>
    law.of_same derived dirty sent fun k => State.lampFor_congr k (by rw [table]) groups held
  have held : ∀ (h : Hold) (q : KeyPos), (s.setHold h q).LampLaw := fun h q => by
    refine law.of_same rfl rfl rfl fun k => ?_
    by_cases e : k = q
    · subst e
      have here : (s.setHold h k).table[k] = { s.table[k] with hold := h } := upd_self _ _ _
      refine State.lampFor_follows (by rw [here]) (by rw [here]) (by rw [here]) (by rw [here]) rfl fun _ _ => Iff.rfl
    · exact State.lampFor_away (b := { s.table[q] with hold := h }) rfl rfl rfl e
  cases h with
  | unpin q owned => exact held .opened q
  | hold h q st owned fixed =>
    exact (held h q).of_same (by simp) (by simp) (by simp) fun k => State.lampFor_congr k (by simp) (by simp) (by simp)
  | lampValue v q owned =>
    exact law.drawnAt (q := q) (u := s.setBinding q { s.table[q] with lampValue := v }) rfl rfl rfl rfl fun k other =>
      State.lampFor_away (s.setLampValue_table v q) (by simp [State.setLampValue]) (by simp [State.setLampValue]) other
  | acquire p a q unasked free room => exact law.acquire p a ((bindings q).group?_of_free free)
  | replace p a q unasked own loose room => exact law.replacePos a q
  | release announce q owned => exact law.releasePos announce q
  | grantEntry i a ask => exact law.grant _ _ _ _ _
  | grantNow p h a q w raw working unasked free owned other room => exact law.grant _ _ _ _ _
  | clearTable => exact law.clearTable yields.2
  | leave p unasked => exact law.leave yields bindings unasked
  | openGroup g p m free =>
    refine law.of_same rfl rfl rfl fun k => State.lampFor_parts rfl rfl fun i _ => ?_
    by_cases e : g = i
    · subst e
      simp [State.Selects, free]
    · rw [State.selects_congr]
      exact upd_ne _ _ _ _ e
  | groupMode g x m group =>
    refine law.of_same rfl rfl rfl fun k => State.lampFor_parts rfl rfl fun i _ => ?_
    by_cases e : g = i
    · subst e
      simp [State.Selects, group]
    · rw [State.selects_congr]
      exact upd_ne _ _ _ _ e
  | closeGroup g x group unasked empty =>
    refine law.of_same rfl rfl rfl fun k => State.lampFor_parts rfl rfl fun i cls => ?_
    have e : g ≠ i := fun e => by
      subst e
      have some := State.members_pos cls yields.1 group
      omega
    rw [State.selects_congr]
    exact upd_ne _ _ _ _ e
  | deselect g x group =>
    cases sel : x.selected with
    | none =>
      have idle : s.deselect g x = s := by simp only [State.deselect, sel]
      rwa [idle]
    | some q =>
      have eq : s.deselect g x = (s.setGroup g (some { x with selected := none })).rederive q := by
        simp only [State.deselect, sel]
      refine law.drawnAt eq rfl rfl rfl fun k other => State.lampFor_parts (by simp) (by simp) fun i _ => ?_
      refine State.selects_upd (y := none) group (by rw [eq, (State.rederive_frame _ _).2.2.2.1]; rfl)
        ⟨fun e => (by cases e), fun e => absurd ?_ other⟩ i
      exact (Option.some.inj (sel.symm.trans e)).symm
  | forgetSent n => exact law.forgotten (by simp) (fun k => State.lampFor_congr k (by simp) (by simp) (by simp)) (s.forgetSent_dirty n) (s.forgetSent_sent n)
  | writeSent n a => exact law.writeSent n a
  | due q r d period found phase =>
    obtain ⟨table, -, groups, -, -, derived, sent, dirty, -⟩ := s.dueAt_frame q r d period
    obtain ⟨f, kept, held⟩ := s.dueAt_held q r d period
    refine law.of_same derived dirty sent fun k => State.lampFor_parts table ?_ fun g _ => by
      rw [State.Selects, State.Selects, groups]
    rw [held, map_if_pos fun x => (kept x).1]
  | press resync q session => exact (s.pressKey_lampsFollow resync q).lampLaw law (by simp)
  | releaseKey resync lost q => exact (s.releaseKey_lampsFollow resync lost q).lampLaw law (by simp)
  | deskReset => exact s.deskReset_lampLaw
  | profile i f ok => exact same rfl rfl rfl rfl rfl rfl
  | _ => exact same (by simp) (by simp) (by simp) (by simp) (by simp) (by simp)

end

end Sys2Proof.Machine
end

section
/-! PROOF. The grants that a lapse brings about (R58). -/

namespace Sys2Proof.Machine

section
variable {s t : State} {p : Port}

/-- From `s` to `t` the asks of `v` that host `p` holds have been granted. -/
structure Lapsing (s t : State) (p : Port) (v : List AskId) : Prop where
  asks : AsksEnd s t (fun a => a.holder = p ∧ ∃ i ∈ v, s.asks[i] = some a)
    (fun a => ⟨.granted, 0x20, [s.table[a.pos].gen + 1]⟩)
  granted : ∀ i ∈ v, ∀ a, s.asks[i] = some a → a.holder = p → t.table[a.pos] = s.table[a.pos].take a.asker a.set
  others : ∀ q : KeyPos, (∀ i ∈ v, ∀ a, s.asks[i] = some a → a.holder = p → a.pos ≠ q) → t.table[q] = s.table[q]

theorem Lapsing.nil (s : State) (p : Port) : Lapsing s s p [] where
  asks := .refl s _ fun _ _ _ ⟨_, _, h, _⟩ => List.not_mem_nil h
  granted _ h := absurd h List.not_mem_nil
  others _ _ := rfl

theorem State.grantIfHeldBy_idle {i : AskId} (h : ∀ a, s.asks[i] = some a → a.holder ≠ p) : s.grantIfHeldBy p i = s := by
  unfold State.grantIfHeldBy
  split
  next => rfl
  next a ask => exact if_neg (h a ask)

theorem State.grantIfHeldBy_holds {i : AskId} {a : Ask} (ask : s.asks[i] = some a) (holder : a.holder = p) :
    s.grantIfHeldBy p i = s.grant (some i) a.asker a.holder a.set a.pos := by
  unfold State.grantIfHeldBy
  rw [ask]
  exact if_pos holder

theorem Lapsing.step {v : List AskId} {i : AskId} (h : Lapsing s t p v) (law : s.AskLaw) (fresh : i ∉ v) :
    Lapsing s (t.grantIfHeldBy p i) p (v ++ [i]) := by
  have mem : ∀ j, j ∈ v ++ [i] ↔ j ∈ v ∨ j = i := fun j => by rw [List.mem_append, List.mem_singleton]
  have apart : ∀ j ∈ v, j ≠ i := fun j hj e => fresh (e ▸ hj)
  by_cases holds : ∃ a, s.asks[i] = some a ∧ a.holder = p
  · obtain ⟨a, ask, holder⟩ := holds
    have away : ∀ j ∈ v, ∀ b, s.asks[j] = some b → b.pos ≠ a.pos := fun j hj b hb => (law.distinct j i b a hb ask (apart j hj)).1
    have pending : t.asks[i] = some a := (h.asks.asks i a).mpr ⟨ask, fun ⟨_, j, hj, same⟩ => away j hj a same rfl⟩
    have record : t.table[a.pos] = s.table[a.pos] := h.others a.pos fun j hj b hb _ => away j hj b hb
    rw [State.grantIfHeldBy_holds pending holder]
    have table := t.grant_table (some i) a.asker a.holder a.set a.pos
    refine ⟨?_, fun j hj b hb hp => ?_, fun q hq => ?_⟩
    · refine h.asks.one law (st := .granted) (d := [t.table[a.pos].gen + 1]) pending (t.grant_asks _ _ _ _ _)
        (t.grant_ports _ _ _ _ _) ?_ fun j b hb => ⟨fun ⟨hp, k, hk, hb'⟩ => ?_, fun g => ?_⟩
      · rw [record]
      · obtain old | rfl := (mem k).mp hk
        · exact .inl ⟨hp, k, old, hb'⟩
        · refine .inr (not_not.mp fun ne => ?_)
          exact (law.distinct j k b b hb hb' ne).1 rfl
      · obtain ⟨hp, k, hk, hb'⟩ | rfl := g
        · exact ⟨hp, k, (mem k).mpr (.inl hk), hb'⟩
        · rw [hb] at ask
          cases ask
          exact ⟨holder, j, (mem j).mpr (.inr rfl), hb⟩
    · obtain old | rfl := (mem j).mp hj
      · rw [table, upd_ne _ _ _ _ (away j old b hb).symm]
        exact h.granted j old b hb hp
      · rw [hb] at ask
        cases ask
        rw [table, upd_self, record]
    · rw [table, upd_ne _ _ _ _ (hq i ((mem i).mpr (.inr rfl)) a ask holder)]
      exact h.others q fun j hj => hq j ((mem j).mpr (.inl hj))
  · have idle : t.grantIfHeldBy p i = t := State.grantIfHeldBy_idle fun a ha hp => holds ⟨a, ((h.asks.asks i a).mp ha).1, hp⟩
    rw [idle]
    refine ⟨h.asks.next rfl rfl fun j b hb => ⟨fun ⟨hp, k, hk, hb'⟩ => ?_, fun ⟨hp, k, hk, hb'⟩ => ?_⟩,
      fun j hj b hb hp => ?_, fun q hq => h.others q fun j hj => hq j ((mem j).mpr (.inl hj))⟩
    · obtain old | rfl := (mem k).mp hk
      · exact ⟨hp, k, old, hb'⟩
      · exact absurd ⟨b, hb', hp⟩ holds
    · exact ⟨hp, k, (mem k).mpr (.inl hk), hb'⟩
    · obtain old | rfl := (mem j).mp hj
      · exact h.granted j old b hb hp
      · exact absurd ⟨b, hb, hp⟩ holds

theorem lapse_walk_spec (law : s.AskLaw) (p : Port) :
    Lapsing s ((List.finRange 4).foldl (fun t i => t.grantIfHeldBy p i) s) p (List.finRange 4) :=
  walk_induct (P := fun v t => Lapsing s t p v) (effect := fun t i => t.grantIfHeldBy p i) (List.nodup_finRange 4)
    (.nil s p) fun _ _ _ fresh _ h => h.step law fresh

theorem State.AskLaw.lapsed (law : s.AskLaw) (p : Port) : (s.lapsed p).AskLaw :=
  law.of_same rfl rfl rfl fun _ a _ _ w => (State.states_upd (s := s) (t := s.lapsed p)
    (u := { s.ports[p] with lapseStart := none, lapseFlag := true }) rfl rfl a.asker).trans w

theorem State.grantIfHeldBy_changes (s : State) (p : Port) (i : AskId) : OnlyChanges s (s.grantIfHeldBy p i)
    [.ports, .asks, .table, .held, .groups, .queues, .noteLow, .derived, .dirty] := by
  intro x hx
  unfold State.grantIfHeldBy
  split
  · cases x <;> rfl
  · split
    · cases x
      case ports | asks | table | held | groups | queues | noteLow | derived | dirty => exact absurd (by simp) hx
      all_goals simp [Part.Same]
    · cases x <;> rfl

/-- Settles O22: the asks are granted one after another, each at its own position to its own asker. -/
theorem hostLapseGrantsItsAsks : Obligations.HostLapseGrantsItsAsks := by
  intro s p start yields running time passed
  obtain ⟨law, -⟩ := State.yieldLaw_iff.mp yields
  have walk := lapse_walk_spec (law.lapsed p) p
  have changes : OnlyChanges (s.lapsed p) ((List.finRange 4).foldl (fun t i => t.grantIfHeldBy p i) (s.lapsed p))
      [.ports, .asks, .table, .held, .groups, .queues, .noteLow, .derived, .dirty] :=
    .foldl (fun t i => t.grantIfHeldBy_changes p i) _ _
  have taken : exec (.hostLapse p) s = .next ((List.finRange 4).foldl (fun t i => t.grantIfHeldBy p i) (s.lapsed p)) := by
    show execHostLapse p s = _
    have due : s.lapseDue p = true := by
      have nonzero : s.ports[p].lapseTime.toNat ≠ 0 := fun e => time (BitVec.eq_of_toNat_eq e)
      simp only [State.lapseDue, running, Machine.passed, Config.lapseUnit, Bool.and_eq_true, decide_eq_true_eq]
      exact ⟨nonzero, decide_eq_true passed⟩
    rw [execHostLapse, if_pos due]
    rfl
  generalize (List.finRange 4).foldl (fun t i => t.grantIfHeldBy p i) (s.lapsed p) = t at walk changes taken
  obtain ⟨asks, granted, others⟩ := walk
  have self : (s.lapsed p).ports[p] = { s.ports[p] with lapseStart := none, lapseFlag := true } := upd_self _ _ _
  have asker : ∀ (i : AskId) a, s.asks[i] = some a → a.holder = p → a.asker ≠ p := fun i a ha hp => hp ▸ law.other i a ha
  refine ⟨t, taken, changes .presence (by simp), ?_, fun i a ha hp => ⟨?_, granted i (List.mem_finRange i) a ha hp, ?_⟩,
    fun i a ha hp => ?_, fun q hq => others q fun i _ => hq i, ?_⟩
  · rw [asks.port p fun j b hb g => asker j b hb g.1, self]
  · cases none : t.asks[i] with
    | none => rfl
    | some b =>
      obtain ⟨hb, stays⟩ := (asks.asks i b).mp none
      have same : b = a := Option.some.inj (hb.symm.trans ha)
      exact absurd ⟨same ▸ hp, i, List.mem_finRange i, hb⟩ stays
  · rw [asks.ended i a ha ⟨hp, i, List.mem_finRange i, ha⟩]
    have other : (s.lapsed p).ports[a.asker] = s.ports[a.asker] := upd_ne _ _ _ _ (asker i a ha hp).symm
    rw [other]
    rfl
  · exact (asks.asks i a).mpr ⟨ha, fun g => hp g.1⟩
  · have falls : OnlyChanges s (s.lapsed p) [.presence, .ports] := fun x hx => by
      cases x
      case presence | ports => exact absurd (by simp) hx
      all_goals rfl
    exact falls.trans changes _ (by simp) (by simp)

end

end Sys2Proof.Machine
end

section
/-! PROOF. All the laws together: the values of power-on obey them, and every step keeps them. -/

namespace Sys2Proof.Machine

section
variable {s t : State}

/-! ## The values of power-on -/

/-- Every record but a link stands at its power-on value, whatever the levels of the chip select pins. -/
structure State.Fresh (s : State) : Prop where
  key : ∀ q : KeyPos, s.table[q] = Binding.unbound 0 ∧ s.derived[q] = .off ∧ s.sent[q] = none
  dirty : ∀ b : Fin 128, s.dirty[b] = true
  held : s.held = []
  group : ∀ g : GroupId, s.groups[g] = none
  ask : ∀ i : AskId, s.asks[i] = none
  host : ∀ p : Port, s.presence[p] = .present ∧ s.queues[p] = [] ∧ s.noteLow[p] = false
  port : ∀ p : Port, s.ports[p] = { PortUnit.initial with csLow := s.ports[p].csLow }
  profiles : s.profiles = defaultProfiles
  mask : s.mask = 0xFF

theorem State.Fresh.portLaw (f : s.Fresh) (p : Port) : PortLaw p s.ports[p] s.queues[p] s.presence[p] := by
  rw [f.port p, (f.host p).1]
  exact ⟨fun t ht => (by cases ht), Nat.zero_le _, fun e => (by cases e), fun e => (by cases e), fun r e => (by cases e)⟩

/-- No link stands handed a change, and each is in OFF in the hold alone. -/
theorem State.Fresh.maskLaw (f : s.Fresh) (handed : ∀ n : LinkId, s.links[n].handed = none)
    (on : s.resetLow = false → ∀ n : LinkId, s.links[n].session ≠ .off) : s.MaskLaw where
  settled low n _ := by
    have all : ∀ n : LinkId, (0xFF#8).getLsbD n.1 = true := by decide
    have enabled : s.enabled n = true := by
      rw [State.enabled, f.mask]
      exact all n
    rw [enabled]
    exact ⟨fun e => absurd e (on low n), fun e => (by cases e)⟩
  handed n e he := by
    rw [handed n] at he
    cases he
  waits n e := by
    rw [handed n] at e
    cases e

theorem State.Fresh.law (f : s.Fresh) (link : ∀ n : LinkId, LinkLaw n s.links[n]) (mask : s.MaskLaw) (hold : s.HoldLaw) :
    s.Law where
  queue p := by rw [(f.host p).2.1]; exact .nil
  note p := by rw [(f.host p).2.1, (f.host p).2.2, lineDrive_nil]
  held := (State.heldSet_of_empty f.held).1
  heldPanel r hr := by rw [f.held] at hr; cases hr
  opened := (State.heldSet_of_empty f.held).2
  heldForm r hr := by rw [f.held] at hr; cases hr
  binding q := by rw [(f.key q).1]; exact .of_unbound 0
  profile i := by rw [f.profiles]; exact defaultProfiles_law i
  group := State.groupLaw_of_empty f.group fun k => by rw [(f.key k).1]; rfl
  yield := State.yieldLaw_iff.mpr ⟨State.askLaw_of_empty f.ask, fun i a ha => by rw [f.ask i] at ha; cases ha⟩
  lamp := State.lampLaw_of_unknown (fun k => by
    rw [(f.key k).2.1, State.lampFor_unowned (by rw [(f.key k).1]; rfl)]) (fun k => (f.key k).2.2) f.dirty
  link := link
  mask := mask
  port := f.portLaw
  hold := hold

theorem State.reset_fresh : State.reset.Fresh := by
  obtain ⟨held, group, ask, host, key, dirty⟩ := State.reset_values
  exact ⟨key, dirty, held, group, ask, host, fun p => by simp [State.reset, PortUnit.initial], rfl, rfl⟩

theorem State.holdReset_fresh (s : State) : s.holdReset.Fresh := by
  obtain ⟨held, group, ask, host, key, dirty⟩ := State.reset_values
  exact ⟨key, dirty, held, group, ask, host, fun p => by rw [s.holdReset_ports p], rfl, rfl⟩

theorem State.holdReset_law (s : State) : s.holdReset.Law := by
  refine s.holdReset_fresh.law (fun n => by rw [s.holdReset_link n]; exact .inReset)
    (s.holdReset_fresh.maskLaw (fun n => by rw [s.holdReset_link n]; rfl) fun low => (by cases low)) fun _ => ?_
  have ports : s.holdReset.ports = s.holdReset.holdReset.ports := eq_of_entries fun k => by
    rw [State.holdReset_ports, State.holdReset_ports, State.holdReset_ports]
  calc s.holdReset = { s.holdReset with ports := s.holdReset.holdReset.ports } := by rw [← ports]
    _ = s.holdReset.holdReset := rfl

/-- The part as it leaves power-on reset (R155, R169, R185). -/
theorem State.leaveReset_law (s : State) : s.leaveReset.Law := by
  rw [State.leaveReset_eq]
  obtain ⟨held, group, ask, host, key, dirty⟩ := State.reset_values
  have fresh : State.Fresh { s.holdReset with links := State.reset.links, resetLow := false } :=
    ⟨key, dirty, held, group, ask, host, fun p => s.holdReset_fresh.port p, rfl, rfl⟩
  have link : ∀ n : LinkId, State.reset.links[n] = LinkEngine.initial := fun n => by simp [State.reset]
  refine fresh.law (fun n => (link n).symm ▸ .initial) (fresh.maskLaw (fun n => (link n).symm ▸ rfl) fun _ n e => ?_)
    fun low => (by cases low)
  have e : State.reset.links[n].session = .off := e
  rw [link n] at e
  cases e

/-- Settles O4: every record stands at its power-on value. -/
theorem resetObeysLaws : Obligations.ResetObeysLaws := by
  have link : ∀ n : LinkId, State.reset.links[n] = LinkEngine.initial := fun n => by simp [State.reset]
  refine State.reset_fresh.law (fun n => by rw [link n]; exact .initial)
    (State.reset_fresh.maskLaw (fun n => by rw [link n]; rfl) fun _ n e => ?_) fun low => (by cases low)
  rw [link n] at e
  cases e

/-! ## Outside the hold -/

/-- The laws outside the hold of power-on reset, but for the presence of the holders of asks, which a lapse breaks for a
while. -/
structure State.Core (s : State) : Prop where
  queue : ∀ p : Port, QueueLaw s.queues[p]
  note : s.NoteLaw
  heldSet : s.HeldSet
  heldPanel : s.HeldPanelLaw
  form : s.FormLaw
  binding : s.BindingsLaw
  profile : ∀ i : ProfileId, ProfileLaw s.profiles[i]
  yields : s.Yields
  lamp : s.LampLaw
  link : ∀ n : LinkId, LinkLaw n s.links[n]
  mask : s.MaskLaw
  port : s.PortsLaw
  high : s.resetLow = false

theorem State.law_iff (high : s.resetLow = false) : s.Law ↔ s.Core ∧ s.HoldersPresent := by
  refine ⟨fun h => ?_, fun ⟨c, present⟩ => ?_⟩
  · obtain ⟨asks, present⟩ := State.yieldLaw_iff.mp h.yield
    exact ⟨⟨h.queue, h.note, ⟨h.held, h.opened⟩, h.heldPanel, h.heldForm, h.binding, h.profile, ⟨h.group, asks⟩, h.lamp,
      h.link, h.mask, h.port, high⟩, present⟩
  · exact ⟨c.queue, c.note, c.heldSet.1, c.heldPanel, c.heldSet.2, c.form, c.binding, c.profile, c.yields.1,
      State.yieldLaw_iff.mpr ⟨c.yields.2, present⟩, c.lamp, c.link, c.mask, c.port, fun low => by rw [high] at low; cases low⟩

theorem Act.core (h : Act s t) (c : s.Core) : t.Core where
  queue := queueLaw_borne.acts s t h c.queue
  note := noteLaw_borne.acts s t h c.note
  heldSet := heldSet_borne.acts s t h c.heldSet
  heldPanel := heldPanelLaw_borne.acts s t h c.heldPanel
  form := h.formLaw c.form c.heldSet.1 c.profile
  binding := h.bindings c.binding
  profile := h.profileLaw c.profile
  yields := h.yields c.yields c.binding c.port
  lamp := h.lampLaw c.lamp c.yields c.binding
  link := h.linkLaw c.link
  mask := h.maskLaw c.mask c.high c.yields.2 c.port
  port := h.portsLaw c.queue c.port
  high := h.timeless.resetLow.trans c.high

/-- Desk time is in no law. -/
theorem State.Core.tick (c : s.Core) : State.Core { s with deskTime := s.deskTime + 1 } where
  queue := c.queue
  note := c.note
  heldSet := heldSet_borne.tick s c.heldSet
  heldPanel := c.heldPanel
  form := c.form
  binding := c.binding
  profile := c.profile
  yields := c.yields.of_ports rfl rfl rfl rfl
  lamp := c.lamp.of_same rfl rfl rfl fun _ => rfl
  link := c.link
  mask := c.mask.kept rfl rfl (fun _ => ⟨rfl, Iff.rfl⟩) fun working _ => working
  port := c.port
  high := c.high

/-- A host lapses whose chip select is high and whose lapse time is not 0 (R58). -/
theorem State.Core.lapsed (c : s.Core) {p : Port} (due : s.lapseDue p = true) : (s.lapsed p).Core where
  queue := c.queue
  note := noteLaw_borne.lapsed s p due c.note
  heldSet := heldSet_borne.lapsed s p due c.heldSet
  heldPanel := c.heldPanel
  form := c.form
  binding := c.binding
  profile := c.profile
  yields := c.yields.of_unit (p := p) rfl rfl rfl rfl rfl
  lamp := c.lamp.of_same rfl rfl rfl fun _ => rfl
  link := c.link
  mask := c.mask.kept rfl rfl (fun _ => ⟨rfl, Iff.rfl⟩) fun working _ => by
    rw [State.workingOnSetLinks_congr (State.states_upd (s := s) (t := s.lapsed p)
      (u := { s.ports[p] with lapseStart := none, lapseFlag := true }) rfl rfl 0)]
    exact working
  port := by
    refine c.port.one p rfl (upd_same _ _).symm rfl ?_
    have law := c.port p
    have time : s.ports[p].lapseTime ≠ 0 ∧ s.ports[p].lapseStart.isSome = true := by
      unfold State.lapseDue at due
      split at due
      next => cases due
      next start running =>
        simp only [Bool.and_eq_true, decide_eq_true_eq] at due
        exact ⟨fun e => due.1 (by rw [e]; rfl), by rw [running]; rfl⟩
    refine ⟨fun t ht => ?_, law.lapseTime, fun e => (by cases e), fun _ => ⟨law.timer time.2, time.1⟩, law.supervisor⟩
    have before := law.txn t ht
    exact ⟨before.low, before.fresh, before.count, before.left, before.fetching, before.noticing⟩
  high := c.high

/-- Between steps a command waits or none does. -/
theorem State.Core.pending (c : s.Core) (l : List Instr) : State.Core { s with pending := l } where
  queue := c.queue
  note := c.note
  heldSet := heldSet_borne.pending s l c.heldSet
  heldPanel := c.heldPanel
  form := c.form
  binding := c.binding
  profile := c.profile
  yields := c.yields.of_ports rfl rfl rfl rfl
  lamp := c.lamp.of_same rfl rfl rfl fun _ => rfl
  link := c.link
  mask := c.mask.kept rfl rfl (fun _ => ⟨rfl, Iff.rfl⟩) fun working _ => working
  port := c.port
  high := c.high

/-- The asks that a lapse leaves are held by hosts that are PRESENT (R41, R58). -/
theorem State.HoldersPresent.lapse (law : s.HoldersPresent) (asks : s.AskLaw) (p : Port) :
    ((List.finRange 4).foldl (fun t i => t.grantIfHeldBy p i) (s.lapsed p)).HoldersPresent := by
  have walk := (lapse_walk_spec (asks.lapsed p) p).asks
  have changes : OnlyChanges (s.lapsed p) ((List.finRange 4).foldl (fun t i => t.grantIfHeldBy p i) (s.lapsed p))
      [.ports, .asks, .table, .held, .groups, .queues, .noteLow, .derived, .dirty] :=
    .foldl (fun t i => t.grantIfHeldBy_changes p i) _ _
  have presence := changes .presence (by simp)
  intro i a ha
  obtain ⟨ask, stays⟩ := (walk.asks i a).mp ha
  have other : p ≠ a.holder := fun e => stays ⟨e.symm, i, List.mem_finRange i, ask⟩
  rw [presence]
  exact (upd_ne _ _ _ _ other).trans (law i a ask)

theorem Acts.core (h : Acts s t) (c : s.Core) : t.Core :=
  h.keeps (fun _ _ act => act.core) c

theorem Acts.holdersPresent (h : Acts s t) (law : s.HoldersPresent) : t.HoldersPresent :=
  h.keeps (fun _ _ act => act.holdersPresent) law

/-- Outside the hold of power-on reset every command but POWER_ON keeps the laws. -/
theorem exec_core {c : Instr} (core : s.Core) (present : s.HoldersPresent) (power : c ≠ .powerOn)
    (h : exec c s = .next t) : t.Core ∧ t.HoldersPresent := by
  by_cases tick : c = .deskTick
  · subst tick
    have h : execDeskTick s = .next t := h
    rw [execDeskTick, if_neg (by rw [core.high]; exact Bool.false_ne_true)] at h
    rw [← Host.Outcome.next.inj h]
    exact ⟨core.tick, present⟩
  by_cases lapse : ∃ p, c = .hostLapse p
  · obtain ⟨p, rfl⟩ := lapse
    obtain rfl | ⟨due, acts⟩ := exec_hostLapse_acts h
    · exact ⟨core, present⟩
    · have h : execHostLapse p s = .next t := h
      rw [execHostLapse, if_pos due] at h
      rw [← Host.Outcome.next.inj h] at acts ⊢
      exact ⟨acts.core (core.lapsed due), present.lapse core.yields.2 p⟩
  · have acts := exec_acts c s power tick (fun p e => lapse ⟨p, e⟩) (fun _ _ => core.high) t h
    exact ⟨acts.core core, acts.holdersPresent present⟩

theorem exec_law {c : Instr} (law : s.Law) (h : exec c s = .next t) : t.Law := by
  by_cases power : c = .powerOn
  · subst power
    have h : execPowerOn s = .next t := h
    rw [← Host.Outcome.next.inj h]
    split
    · exact s.leaveReset_law
    · exact s.holdReset_law
  · cases level : s.resetLow with
    | true =>
      obtain ⟨u, next, low, hold⟩ := exec_holdLaw level law.hold power
      rw [next] at h
      rw [← Host.Outcome.next.inj h, hold low]
      exact u.holdReset_law
    | false =>
      obtain ⟨core, present⟩ := (State.law_iff level).mp law
      obtain ⟨core, present⟩ := exec_core core present power h
      exact (State.law_iff core.high).mpr ⟨core, present⟩

/-- No law reads the commands that wait. -/
theorem State.Law.pending (law : s.Law) (l : List Instr) : State.Law { s with pending := l } := by
  by_cases level : s.resetLow = true
  · have same : { s with pending := l } = ({ s with pending := l } : State).holdReset :=
      (congrArg (fun t : State => { t with pending := l }) (law.hold level)).trans rfl
    rw [same]
    exact State.holdReset_law _
  · have high := Bool.eq_false_iff.mpr level
    obtain ⟨core, present⟩ := (State.law_iff high).mp law
    exact (State.law_iff (s := { s with pending := l }) high).mpr ⟨core.pending l, present⟩

/-- Settles O5: outside the hold every act keeps the laws, and a lapse grants the asks that it leaves without a PRESENT
holder; in the hold the state is the power-on state. -/
theorem stepKeepsLaws : Obligations.StepKeepsLaws := by
  intro s t law h
  unfold step at h
  split at h
  next => exact Host.Outcome.next.inj h ▸ law
  next => exact exec_law (law.pending _) h

end

end Sys2Proof.Machine
end

section
/-! PROOF. Owners and generations: the commands that bind or release no position (R12). -/

namespace Sys2Proof.Machine

/-- Every position's owner and generation stand. -/
def SameOwners (s t : State) : Prop :=
  ∀ q : KeyPos, t.table[q].owner = s.table[q].owner ∧ t.table[q].gen = s.table[q].gen

section
variable {s t u : State}

theorem SameOwners.of_table (h : t.table = s.table) : SameOwners s t :=
  fun q => by rw [h]; exact ⟨rfl, rfl⟩

theorem SameOwners.refl (s : State) : SameOwners s s :=
  .of_table rfl

theorem SameOwners.trans (h : SameOwners s t) (k : SameOwners t u) : SameOwners s u :=
  fun q => ⟨(k q).1.trans (h q).1, (k q).2.trans (h q).2⟩

theorem SameOwners.next (h : SameOwners s t) (k : u.table = t.table) : SameOwners s u :=
  h.trans (.of_table k)

theorem SameOwners.foldl {α : Type} {effect : State → α → State} (h : ∀ t x, SameOwners t (effect t x)) (l : List α)
    (s : State) : SameOwners s (l.foldl effect s) := by
  induction l generalizing s with
  | nil => exact .refl s
  | cons x xs ih => exact (h s x).trans (ih _)

/-- One binding is rewritten with its owner and its generation. -/
theorem SameOwners.of_upd {q : KeyPos} {b : Binding} (h : t.table = upd s.table q b) (owner : b.owner = s.table[q].owner)
    (gen : b.gen = s.table[q].gen) : SameOwners s t := by
  intro k
  rw [h]
  by_cases e : q = k
  · subst e
    rw [upd_self]
    exact ⟨owner, gen⟩
  · rw [upd_ne _ _ _ _ e]
    exact ⟨rfl, rfl⟩

theorem State.pressKey_sameOwners (s : State) (resync : Bool) (q : KeyPos) : SameOwners s (s.pressKey resync q) := by
  obtain same | ⟨-, turned⟩ := s.pressKey_table resync q
  · exact .of_table same
  · obtain ⟨gen, -, owner⟩ := s.table[q].pressed_eq
    exact .of_upd turned owner gen

/-- A range request whose effect at a position binds and releases nothing. -/
theorem State.rangeRequest_sameOwners {p : Port} {f : Half} {n : Byte} {whole : Option StatusCode}
    {failure : List KeyPos → Option (StatusCode × Nat)} {effect : State → KeyPos → State}
    (h : ∀ t q, SameOwners t (effect t q)) : SameOwners s (s.rangeRequest p f n whole failure effect) := by
  unfold State.rangeRequest
  split
  next => exact .of_table (by simp)
  next qs _ =>
    split
    next => exact .of_table (by simp)
    next =>
      split
      next => exact .of_table (by simp)
      next => exact (SameOwners.foldl h qs s).next (by simp)

theorem State.setHold_sameOwners (s : State) (h : Hold) (q : KeyPos) : SameOwners s (s.setHold h q) :=
  .of_upd (q := q) (b := { s.table[q] with hold := h }) rfl rfl rfl

theorem State.withOwnGroup_table {p : Port} {group : Byte} {act : GroupId → SelGroup → State}
    (h : ∀ g x, (act g x).table = s.table) : (s.withOwnGroup p group act).table = s.table := by
  unfold State.withOwnGroup
  split
  · simp
  · split
    · simp
    · split
      · exact h _ _
      · simp

/-- A good reply binds and releases nothing: an IMAGE reply presses keys (R76). -/
theorem State.goodReply_sameOwners (s : State) (n : LinkId) (x : Exchange) (r : Reply) : SameOwners s (s.goodReply n x r) := by
  cases r with
  | image keys =>
    show SameOwners s (s.takeImage n keys)
    unfold State.takeImage
    split
    next c i last _ =>
      let s1 := s.setLink n { s.links[n] with bitL := false }
      have released : SameOwners s (s1.reconcileReleases n keys) := .of_table (by simp [s1])
      have pressed : SameOwners (s1.reconcileReleases n keys) (s1.reconcile n i.keyCount keys) :=
        .foldl (fun t q => t.pressKey_sameOwners true q) _ _
      exact (released.trans pressed).next (by simp [s1])
    all_goals exact .refl s
  | ident | edge | nothing | lost | accept | again =>
    refine .of_table ?_
    simp [State.goodReply]

theorem State.endExchange_sameOwners (s : State) (n : LinkId) (r : Reply) : SameOwners s (s.endExchange n r) := by
  unfold State.endExchange
  split
  next => exact .refl s
  next x _ =>
    split
    · exact (SameOwners.of_table (t := s.goodExchange n) (by simp [State.goodExchange])).trans (State.goodReply_sameOwners _ n x r)
    · exact .of_table (by simp)

theorem State.takeEdge_sameOwners {press : Bool} {q : KeyPos} {act : State → State} (h : ∀ t, SameOwners t (act t)) :
    SameOwners s (s.takeEdge press q act) := by
  unfold State.takeEdge
  split
  next => exact .refl s
  next e rest _ =>
    split
    · have taken : SameOwners s (s.setLink (panelOf q) { s.links[panelOf q] with edges := rest }) := .of_table rfl
      dsimp only
      split
      · exact taken.trans (h _)
      · exact taken
    · exact .refl s

end

/-- The commands that bind or release positions. -/
def binds : Instr → Bool
  | .claim _ | .release _ | .clearTable | .leave _ | .yieldAsk _ | .yieldReply _ | .hostLapse _ | .deskReset | .powerOn => true
  | _ => false

/-- The other commands bind and release nothing. -/
theorem exec_sameOwners {c : Instr} {s t : State} (h : exec c s = .next t) (other : binds c = false) : SameOwners s t := by
  have next : ∀ {u : State}, (.next u : Out) = .next t → SameOwners s u → SameOwners s t :=
    fun e same => Host.Outcome.next.inj e ▸ same
  have range : ∀ {p : Port} {f : Half} {n : Byte} {failure : List KeyPos → Option (StatusCode × Nat)} (v : Hold) (st : StatusCode),
      SameOwners s (s.rangeRequest p f n none failure (fun t q => (t.setHold v q).endAskOn q st)) := fun v st =>
    State.rangeRequest_sameOwners fun t q => (t.setHold_sameOwners v q).next (by simp)
  cases c with
  | claim | release | clearTable | leave | yieldAsk | yieldReply | hostLapse | deskReset | powerOn => cases other
  | pin p =>
    refine next h ?_
    split
    · exact range .pinned .refused
    · exact .refl s
  | fix =>
    refine next h ?_
    split
    · exact range .fixed .fixed
    · exact .refl s
  | unpin p =>
    refine next h ?_
    split
    · exact State.rangeRequest_sameOwners fun t q => t.setHold_sameOwners .opened q
    · exact .refl s
  | lamp p =>
    refine next h ?_
    split
    · split
      · exact State.rangeRequest_sameOwners fun t q => .refl t
      · exact State.rangeRequest_sameOwners fun t q => .of_upd (t.setLampValue_table _ q) rfl rfl
    · exact .refl s
  | pressEdge q => exact next h (State.takeEdge_sameOwners fun t => t.pressKey_sameOwners false q)
  | releaseEdge q => exact next h (State.takeEdge_sameOwners fun t => .of_table (by simp))
  | ident | imageReply | edge | nothing | lost | accept | again => exact next h (s.endExchange_sameOwners _ _)
  | exchangeFailed => exact next h (.of_table (by simp))
  | openGroup p =>
    refine next h (.of_table ?_)
    split
    · unfold State.takeOpenGroup
      repeat' split
      all_goals simp
    · rfl
  | closeGroup p =>
    refine next h (.of_table ?_)
    split
    · refine State.withOwnGroup_table fun g x => ?_
      split <;> simp
    · rfl
  | clearSelection p =>
    refine next h (.of_table ?_)
    split
    · exact State.withOwnGroup_table fun g x => by simp
    · rfl
  | _ =>
    refine next h (.of_table ?_)
    repeat' split
    all_goals simp

end Sys2Proof.Machine
end

section
/-! PROOF. A generation changes exactly when its owner does (R12). -/

namespace Sys2Proof.Machine

/-- The generation has changed exactly if the owner has. -/
def Turned (b c : Binding) : Prop :=
  c.gen = b.gen ↔ c.owner = b.owner

theorem Turned.refl (b : Binding) : Turned b b :=
  ⟨fun _ => rfl, fun _ => rfl⟩

theorem Turned.of_same {b c : Binding} (gen : c.gen = b.gen) (owner : c.owner = b.owner) : Turned b c :=
  ⟨fun _ => owner, fun _ => gen⟩

theorem Turned.of_changed {b c : Binding} (gen : c.gen ≠ b.gen) (owner : c.owner ≠ b.owner) : Turned b c :=
  ⟨fun e => absurd e gen, fun e => absurd e owner⟩

theorem gen_ne (g : Byte) : g + 1 ≠ g ∧ g + 1 + 1 ≠ g := by
  have step : ∀ n : Byte, n ≠ 0 → g + n ≠ g := fun n ne e => ne (by simpa using e)
  refine ⟨step 1 (by decide), ?_⟩
  rw [BitVec.add_assoc]
  exact step (1 + 1) (by decide)

theorem Turned.take (b : Binding) {p : Port} (a : AttrSet) (other : b.owner ≠ some p) : Turned b (b.take p a) :=
  .of_changed (gen_ne b.gen).1 (Ne.symm other)

theorem Turned.unbound {b : Binding} (owned : b.owner ≠ none) : Turned b (Binding.unbound (b.gen + 1)) :=
  .of_changed (gen_ne b.gen).1 (Ne.symm owned)

theorem Turned.released {b : Binding} {p : Port} (a : AttrSet) (other : b.owner ≠ some p) :
    Turned b ((Binding.unbound (b.gen + 1)).take p a) :=
  .of_changed (gen_ne b.gen).2 (Ne.symm other)

theorem Turned.cleared (b : Binding) : Turned b b.cleared := by
  unfold Binding.cleared
  split
  next => exact .refl b
  next owned => exact .unbound owned

theorem Turned.deskReset (b : Binding) : Turned b b.deskReset := by
  unfold Binding.deskReset
  split
  next => exact .refl b
  next owned =>
    split
    next => exact .of_same rfl rfl
    next => exact .unbound owned

theorem Turned.replace (b : Binding) (a : AttrSet) : Turned b (b.replace a) :=
  .of_same rfl rfl

/-- At every position the generation has changed exactly if the owner has. -/
def Turns (s t : State) : Prop :=
  ∀ q : KeyPos, Turned s.table[q] t.table[q]

section
variable {s t u : State}

theorem SameOwners.turns (h : SameOwners s t) : Turns s t :=
  fun q => .of_same (h q).2 (h q).1

theorem Turns.of_table (h : t.table = s.table) : Turns s t :=
  (SameOwners.of_table h).turns

theorem Turns.next (h : Turns s t) (k : u.table = t.table) : Turns s u := by
  intro q
  rw [k]
  exact h q

theorem Turns.of_upd {q : KeyPos} {b : Binding} (h : t.table = upd s.table q b) (turned : Turned s.table[q] b) : Turns s t := by
  intro k
  rw [h]
  by_cases e : q = k
  · subst e
    rw [upd_self]
    exact turned
  · rw [upd_ne _ _ _ _ e]
    exact .refl _

theorem Rewritten.turns {f : Binding → Binding} {l : List KeyPos} (h : Rewritten s t f l) (turned : ∀ b, Turned b (f b)) :
    Turns s t := by
  intro q
  rw [h q]
  split
  · exact turned _
  · exact .refl _

/-- A walk that comes to each position once, and turns that one. -/
theorem walk_turns {Inv : State → Prop} {effect : State → KeyPos → State} {qs : List KeyPos} (nodup : qs.Nodup) (base : Inv s)
    (step : ∀ t q, q ∈ qs → Inv t → t.table[q] = s.table[q] → Inv (effect t q) ∧
      ∃ b, (effect t q).table = upd t.table q b ∧ Turned s.table[q] b) : Turns s (qs.foldl effect s) := by
  have walk : Inv (qs.foldl effect s) ∧ ∀ k : KeyPos, (k ∉ qs → (qs.foldl effect s).table[k] = s.table[k]) ∧
      Turned s.table[k] (qs.foldl effect s).table[k] := by
    refine walk_induct (P := fun v t => Inv t ∧ ∀ k : KeyPos, (k ∉ v → t.table[k] = s.table[k]) ∧
      Turned s.table[k] t.table[k]) nodup ⟨base, fun k => ⟨fun _ => rfl, .refl _⟩⟩ fun v q t fresh hq ⟨inv, keys⟩ => ?_
    obtain ⟨inv, b, table, turned⟩ := step t q hq inv ((keys q).1 fresh)
    refine ⟨inv, fun k => ?_⟩
    clear hq
    rw [table]
    by_cases e : q = k
    · subst e
      rw [upd_self]
      exact ⟨fun h => absurd (List.mem_append.mpr (.inr (List.mem_singleton_self _))) h, turned⟩
    · rw [upd_ne _ _ _ _ e]
      exact ⟨fun h => (keys k).1 fun m => h (List.mem_append.mpr (.inl m)), (keys k).2⟩
  exact fun k => (walk.2 k).2

/-- A range request whose walk turns the positions it comes to. -/
theorem State.rangeRequest_turns {p : Port} {f : Half} {n : Byte} {whole : Option StatusCode}
    {failure : List KeyPos → Option (StatusCode × Nat)} {effect : State → KeyPos → State}
    (h : ∀ qs, rangeOf f n = some qs → failure qs = none → Turns s (qs.foldl effect s)) :
    Turns s (s.rangeRequest p f n whole failure effect) := by
  unfold State.rangeRequest
  split
  next => exact .of_table (by simp)
  next qs range =>
    split
    next => exact .of_table (by simp)
    next =>
      split
      next => exact .of_table (by simp)
      next passes => exact (h qs range passes).next (by simp)

/-- A release with an ask pending makes the position the asker's, who is not its owner (R41, R48). -/
theorem State.releasePos_turns (law : s.AskLaw) (announce : Bool) {q : KeyPos} (owned : s.table[q].owner ≠ none) :
    ∃ b, (s.releasePos announce q).table = upd s.table q b ∧ Turned s.table[q] b := by
  cases ask : s.askOn q with
  | none => exact ⟨_, (s.releasePos_unasked_moved announce ask).1.table, .unbound owned⟩
  | some e =>
    obtain ⟨i, a⟩ := e
    refine ⟨_, (s.releasePos_asked_moved announce ask).1.table, .released a.set fun e => ?_⟩
    obtain ⟨pending, here⟩ := State.askOn_mem ask
    have holder := (law.holder i a pending).1
    subst here
    exact law.other i a pending (Option.some.inj (e.symm.trans holder))

theorem State.claimPos_turns (s : State) (p : Port) (a : AttrSet) (q : KeyPos) :
    ∃ b, (State.claimPos p a s q).table = upd s.table q b ∧ Turned s.table[q] b := by
  unfold State.claimPos
  split
  next free => exact ⟨_, s.acquire_table p a q, .take _ a (by rw [free]; exact fun e => by cases e)⟩
  next => exact ⟨_, s.replacePos_table a q, .replace _ a⟩

theorem State.leavePos_turns (law : s.AskLaw) (p : Port) (q : KeyPos) :
    ∃ b, (State.leavePos p s q).table = upd s.table q b ∧ Turned s.table[q] b := by
  unfold State.leavePos
  split
  next leaves => exact State.releasePos_turns law false (by rw [leaves.1]; exact Option.some_ne_none p)
  next => exact ⟨_, (upd_same _ _).symm, .refl _⟩

theorem clearTable_turns (law : s.AskLaw) : Turns s (s.overTable State.clearPos).freeGroups :=
  ((clear_walk_asks law).1.turns Turned.cleared).next (State.freeGroups_frame _).1

theorem leave_turns (law : s.AskLaw) (p : Port) : Turns s (s.overTable (State.leavePos p)) :=
  walk_turns (Inv := State.AskLaw) (List.nodup_finRange 1024) law fun t q _ asks same => ⟨by
    unfold State.leavePos
    split
    · exact State.releasePos_askLaw asks false q
    · exact asks, same ▸ State.leavePos_turns asks p q⟩

/-- What LEAVE does after its walk writes no binding. -/
theorem State.left_table (s : State) (p : Port) :
    ((((s.freeGroupsOf p).setPresence p .present).emptyQueue p).answer p .ok []).table = s.table := by
  simp

theorem deskReset_turns (law : s.AskLaw) : Turns s s.deskReset :=
  ((reset_walk_spec law).1.turns Turned.deskReset).next s.deskReset_table

theorem lapse_turns (law : s.AskLaw) (p : Port) :
    Turns s ((List.finRange 4).foldl (fun t i => t.grantIfHeldBy p i) (s.lapsed p)) := by
  have walk := lapse_walk_spec (law.lapsed p) p
  generalize (List.finRange 4).foldl (fun t i => t.grantIfHeldBy p i) (s.lapsed p) = t at walk
  intro q
  by_cases granted : ∃ (i : AskId) (a : Ask), s.asks[i] = some a ∧ a.holder = p ∧ a.pos = q
  · obtain ⟨i, a, ask, holder, rfl⟩ := granted
    have taken : t.table[a.pos] = s.table[a.pos].take a.asker a.set := walk.granted i (List.mem_finRange i) a ask holder
    rw [taken]
    refine .take _ a.set fun e => law.other i a ask (Option.some.inj (e.symm.trans ?_))
    exact (law.holder i a ask).1
  · have same : t.table[q] = s.table[q] := walk.others q fun i _ a ask holder here => granted ⟨i, a, ask, holder, here⟩
    rw [same]
    exact .refl _

theorem grant_turns {e : Option AskId} {p h : Port} {a : AttrSet} {q : KeyPos} (other : s.table[q].owner ≠ some p) :
    Turns s (s.grant e p h a q) :=
  .of_upd (s.grant_table e p h a q) (.take _ a other)

theorem takeAsk_turns (s : State) (p : Port) (w : Half) (raw : RawAttrs) : Turns s (s.takeAsk p w raw) := by
  cases pos : position w with
  | none =>
    have check : s.checkAsk p w raw = .refused .badPosition := by simp only [State.checkAsk, pos]
    simp only [State.takeAsk, check]
    exact .of_table (by simp)
  | some q =>
    cases valid : raw.validate with
    | none =>
      have check : s.checkAsk p w raw = .refused .badAttr := by simp only [State.checkAsk, pos, valid]
      simp only [State.takeAsk, check]
      exact .of_table (by simp)
    | some a =>
      have check : s.checkAsk p w raw = s.askOutcome p q a := by simp only [State.checkAsk, pos, valid]
      obtain ⟨st, outcome⟩ | ⟨passes, ⟨free, outcome⟩ | ⟨h, owned, ⟨-, outcome⟩ | ⟨-, outcome⟩⟩⟩ := s.askOutcome_cases p q a
      all_goals simp only [State.takeAsk, check, outcome]
      · exact .of_table (by simp)
      · exact (Turns.of_upd (s.acquire_table p a q) (.take _ a passes.self)).next (by simp)
      · exact grant_turns passes.self
      · exact .of_table (by simp)

theorem takeReply_turns (law : s.AskLaw) (p : Port) (id d : Byte) : Turns s (s.takeReply p id d) := by
  unfold State.takeReply
  split
  · exact .of_table (by simp)
  · split
    next => exact .of_table (by simp)
    next i a held =>
      obtain ⟨ask, holder⟩ := State.heldAsk_mem held
      split
      · have other : s.table[a.pos].owner ≠ some a.asker := fun e =>
          law.other i a ask (Option.some.inj (e.symm.trans (law.holder i a ask).1))
        exact (grant_turns (e := some i) (h := p) (a := a.set) other).next (by simp)
      · exact .of_table (by simp)

end

/-- Settles O12: a command comes to a position once, and there binds, releases or neither. -/
theorem generationFollowsOwner : Obligations.GenerationFollowsOwner := by
  intro s t c q yields power h
  obtain ⟨law, -⟩ := State.yieldLaw_iff.mp yields
  have next : ∀ {u : State}, (.next u : Out) = .next t → Turns s u → Turns s t := fun e turns => Host.Outcome.next.inj e ▸ turns
  suffices turns : Turns s t from turns q
  cases c with
  | powerOn => exact absurd rfl power
  | claim p =>
    refine next h ?_
    split
    · split
      · exact State.rangeRequest_turns fun qs _ _ => .of_table (foldl_keeps State.table _ (fun _ _ => rfl) qs s)
      · exact State.rangeRequest_turns fun qs range _ => walk_turns (Inv := fun _ => True) (rangeOf_nodup range) trivial
          fun t q _ _ same => ⟨trivial, same ▸ t.claimPos_turns p _ q⟩
    · exact .of_table rfl
  | release p =>
    refine next h ?_
    split
    · refine State.rangeRequest_turns fun qs range passes => walk_turns (Inv := State.AskLaw) (rangeOf_nodup range) law
        fun t q hq asks same => ⟨State.releasePos_askLaw asks true q, ?_⟩
      have owned := State.ownRefusal_eq_none_iff.mp (firstFailure_eq_none_iff.mp passes q hq)
      clear hq
      have own : t.table[q].owner ≠ none := by
        rw [same, owned.1]
        exact Option.some_ne_none p
      exact same ▸ State.releasePos_turns asks true own
    · exact .of_table rfl
  | clearTable =>
    refine next h ?_
    split
    · exact (clearTable_turns law).next (by simp)
    · exact .of_table rfl
  | leave p =>
    refine next h ?_
    split
    · exact (leave_turns law p).next (State.left_table _ p)
    · exact .of_table rfl
  | yieldAsk p =>
    refine next h ?_
    split
    · split
      · exact .of_table rfl
      · exact takeAsk_turns s p _ _
    · exact .of_table rfl
  | yieldReply p =>
    refine next h ?_
    split
    · exact takeReply_turns law p _ _
    · exact .of_table rfl
  | hostLapse p =>
    refine next h ?_
    split
    · exact lapse_turns law p
    · exact .of_table rfl
  | deskReset =>
    refine next h ?_
    split
    · exact (deskReset_turns law).next (by simp)
    · exact .of_table rfl
  | _ => exact (exec_sameOwners h rfl).turns

end Sys2Proof.Machine
end

section
/-! PROOF. CLAIM of a range whose positions all pass (R19 to R23). -/

namespace Sys2Proof.Machine

/-- What CLAIM leaves at a position (R20, R21). -/
def Binding.claimed (p : Port) (a : AttrSet) (b : Binding) : Binding :=
  if b.owner = none then b.take p a else b.replace a

/-- The notices of a replacement: those of a member that leaves its group (R22, R104). -/
def State.claimReports (s : State) (p : Port) (a : AttrSet) (q : KeyPos) : List Report :=
  if s.table[q].owner = some p ∧ s.table[q].cls.group? ≠ a.cls.group? then s.deselectedReport q else []

/-- The positions of a range that leave group `g` (R22). -/
def State.claimLeaves (s : State) (p : Port) (a : AttrSet) (g : GroupId) (q : KeyPos) : Bool :=
  decide (s.table[q].owner = some p) && decide (s.table[q].cls = .select g) && decide (a.cls ≠ .select g)

/-- The positions of a range that join group `g` (R22). -/
def State.claimJoins (s : State) (p : Port) (a : AttrSet) (g : GroupId) (q : KeyPos) : Bool :=
  decide (a.cls = .select g) && !(decide (s.table[q].owner = some p) && decide (s.table[q].cls = .select g))

section
variable {s t u : State} {p : Port} {a : AttrSet} {q k : KeyPos}

/-! ## One position -/

theorem State.claimPos_unowned (free : s.table[q].owner = none) : State.claimPos p a s q = s.acquire p a q := by
  simp only [State.claimPos, free]

theorem State.claimPos_owned {h : Port} (owned : s.table[q].owner = some h) :
    State.claimPos p a s q = s.replacePos a q := by
  simp only [State.claimPos, owned]

theorem State.claimPos_table (s : State) (p : Port) (a : AttrSet) (q : KeyPos) :
    (State.claimPos p a s q).table = upd s.table q (s.table[q].claimed p a) := by
  unfold Binding.claimed
  cases owner : s.table[q].owner with
  | none => rw [State.claimPos_unowned owner, if_pos rfl, State.acquire_table]
  | some h => rw [State.claimPos_owned owner, if_neg (Option.some_ne_none h), State.replacePos_table]

theorem State.claimPos_changes (s : State) (p : Port) (a : AttrSet) (q : KeyPos) :
    OnlyChanges s (State.claimPos p a s q) [.table, .groups, .queues, .noteLow, .derived, .dirty] := by
  intro x hx
  unfold State.claimPos
  split
  all_goals
    cases x
    case table | groups | queues | noteLow | derived | dirty => exact absurd (by simp) hx
    all_goals simp [Part.Same]

theorem State.claimPos_rederives (s : State) (p : Port) (a : AttrSet) (q : KeyPos) :
    ∃ u : State, State.claimPos p a s q = u.rederive q ∧ u.derived = s.derived ∧ u.dirty = s.dirty ∧ u.sent = s.sent := by
  cases owner : s.table[q].owner with
  | none =>
    rw [State.claimPos_unowned owner]
    exact ⟨_, rfl, by simp⟩
  | some h =>
    rw [State.claimPos_owned owner]
    exact s.replacePos_rederives a q

/-- The group of a position claimed: left where it is replaced out of it, joined where the set names another. -/
theorem State.claimPos_regroups (s : State) (p : Port) (a : AttrSet) (q : KeyPos) (g : GroupId) :
    (State.claimPos p a s q).groups[g] =
      if s.table[q].owner ≠ none ∧ s.table[q].cls.group? = a.cls.group? then s.groups[g]
      else if s.table[q].owner ≠ none ∧ s.table[q].cls.group? = some g then s.groups[g].map (·.left q)
      else if a.cls.group? = some g then s.groups[g].map SelGroup.joined else s.groups[g] := by
  cases owner : s.table[q].owner with
  | none =>
    rw [State.claimPos_unowned owner, s.acquire_group p a q g]
    simp
  | some h =>
    rw [State.claimPos_owned owner, s.replacePos_group a q g]
    simp

/-- A position claimed takes no selection, and loses its own where it is replaced out of its group (R23, R104). -/
theorem State.claimPos_selects (s : State) (p : Port) (a : AttrSet) (q : KeyPos) (g : GroupId) (k : KeyPos) :
    (State.claimPos p a s q).Selects g k ↔ s.Selects g k ∧
      (k = q → ¬ (s.table[q].owner ≠ none ∧ s.table[q].cls.group? = some g ∧ a.cls.group? ≠ some g)) := by
  unfold State.Selects
  rw [s.claimPos_regroups p a q g]
  cases s.groups[g] with
  | none => simp
  | some x =>
    by_cases leaves : s.table[q].owner ≠ none ∧ s.table[q].cls.group? = some g ∧ a.cls.group? ≠ some g
    · obtain ⟨owned, named, differs⟩ := leaves
      rw [if_neg fun h => differs (h.2.symm.trans named), if_pos ⟨owned, named⟩]
      simp only [Option.map_some, Option.some.injEq, exists_eq_left', SelGroup.left]
      by_cases sel : x.selected = some q
      · rw [if_pos sel, sel]
        exact ⟨fun h => (by cases h), fun h => absurd ⟨owned, named, differs⟩ (h.2 (Option.some.inj h.1).symm)⟩
      · rw [if_neg sel]
        exact ⟨fun h => ⟨h, fun e => absurd (e ▸ h) sel⟩, And.left⟩
    · rw [and_iff_left fun _ => leaves]
      split
      next => exact Iff.rfl
      next differs =>
        split
        next owned => exact absurd ⟨owned.1, owned.2, fun e => differs ⟨owned.1, owned.2.trans e.symm⟩⟩ leaves
        next =>
          split
          next => simp [SelGroup.joined]
          next => exact Iff.rfl

theorem State.claimPos_lampFor (other : k ≠ q) : (State.claimPos p a s q).lampFor k = s.lampFor k := by
  have same : (State.claimPos p a s q).table[k] = s.table[k] := by
    rw [s.claimPos_table p a q, upd_ne _ _ _ _ other.symm]
  have held : (State.claimPos p a s q).held = s.held := s.claimPos_changes p a q .held (by simp)
  refine State.lampFor_follows (by rw [same]) (by rw [same]) (by rw [same]) (by rw [same])
    (State.heldAt_isSome_congr (by rw [held]) k) fun g _ => ?_
  rw [s.claimPos_selects p a q g k]
  exact ⟨And.left, fun h => ⟨h, fun e => absurd e other⟩⟩

theorem State.claimPos_offered (own : s.table[q].owner = none ∨ s.table[q].owner = some p) :
    Offered s (State.claimPos p a s q) p (s.claimReports p a q) := by
  unfold State.claimReports
  obtain free | owned := own
  · rw [State.claimPos_unowned free, if_neg fun h => by rw [free] at h; cases h.1]
    exact (Offered.refl s p).congr (by simp) (by simp)
  · rw [State.claimPos_owned owned, State.replacePos]
    by_cases same : s.table[q].cls.group? = a.cls.group?
    · rw [if_pos same, if_neg fun h => h.2 same]
      exact (Offered.refl s p).congr (by simp) (by simp)
    · rw [if_neg same, if_pos ⟨owned, same⟩]
      exact (State.leaveGroup_offered owned).congr (by simp) (by simp)

/-! ## The walk -/

/-- From `s` to `t` the positions of `l` have been claimed, in their order. -/
structure Claimed (p : Port) (a : AttrSet) (s t : State) (l : List KeyPos) : Prop where
  table : Rewritten s t (Binding.claimed p a) l
  selects : ∀ (g : GroupId) (k : KeyPos), t.Selects g k ↔ s.Selects g k ∧
    (k ∈ l → ¬ (s.table[k].owner ≠ none ∧ s.table[k].cls.group? = some g ∧ a.cls.group? ≠ some g))
  drawn : Redrawn s t l
  offered : Offered s t p (l.flatMap (s.claimReports p a))
  still : a.cls.group? = none → (∀ q ∈ l, s.table[q].cls.group? = none) → t.groups = s.groups
  changes : OnlyChanges s t [.table, .groups, .queues, .noteLow, .derived, .dirty]

theorem Claimed.nil (s : State) (p : Port) (a : AttrSet) : Claimed p a s s [] where
  table := .nil s _
  selects g k := by simp
  drawn := .nil rfl rfl
  offered := .refl s p
  still _ _ := rfl
  changes := .refl s _

theorem Claimed.step {l : List KeyPos} (c : Claimed p a s t l) (own : s.table[q].owner = none ∨ s.table[q].owner = some p)
    (fresh : q ∉ l) : Claimed p a s (State.claimPos p a t q) (l ++ [q]) := by
  have record : t.table[q] = s.table[q] := by rw [c.table q, if_neg fresh]
  have selects : ∀ g, t.Selects g q ↔ s.Selects g q := fun g => by
    rw [c.selects g q]
    exact ⟨And.left, fun h => ⟨h, fun v => absurd v fresh⟩⟩
  refine ⟨c.table.next fresh (t.claimPos_table p a q), fun g k => ?_, ?_, ?_, fun none free => ?_,
    c.changes.trans (t.claimPos_changes p a q) _ (fun _ h => h) fun _ h => h⟩
  · rw [t.claimPos_selects p a q g k, c.selects g k, record, List.mem_append, List.mem_singleton]
    refine ⟨fun ⟨⟨sel, old⟩, new⟩ => ⟨sel, fun m => m.elim old fun e => ?_⟩,
      fun ⟨sel, all⟩ => ⟨⟨sel, fun m => all (.inl m)⟩, fun e => ?_⟩⟩
    · subst e
      exact new rfl
    · subst e
      exact all (.inr rfl)
  · obtain ⟨u, eq, derived, dirty, sent⟩ := t.claimPos_rederives p a q
    exact c.drawn.visited eq derived dirty sent fun k hk => State.claimPos_lampFor fun e => fresh (e ▸ hk)
  · have report : t.claimReports p a q = s.claimReports p a q := by
      unfold State.claimReports
      rw [record, State.deselectedReport_congr record selects]
    have offered := State.claimPos_offered (s := t) (a := a) (own.imp (fun e => record ▸ e) fun e => record ▸ e)
    rw [report] at offered
    have ports : t.ports = s.ports := c.changes .ports (by simp)
    rw [List.flatMap_append, List.flatMap_singleton]
    exact c.offered.trans offered (c.changes .deskTime (by simp)) (by rw [ports])
  · rw [← c.still none fun k hk => free k (List.mem_append.mpr (.inl hk))]
    refine eq_of_entries fun g => ?_
    have here : t.table[q].cls.group? = .none := by
      rw [record]
      exact free q (List.mem_append.mpr (.inr (List.mem_singleton_self q)))
    rw [t.claimPos_regroups p a q g, here, none]
    simp

theorem claim_walk_spec {qs : List KeyPos} (nodup : qs.Nodup)
    (own : ∀ q ∈ qs, s.table[q].owner = none ∨ s.table[q].owner = some p) :
    Claimed p a s (qs.foldl (State.claimPos p a) s) qs := by
  refine walk_induct (P := fun v t => Claimed p a s t v) nodup (.nil s p a) fun v q t fresh hq c => ?_
  have owned := own q hq
  clear hq
  exact c.step owned fresh

/-! ## The groups -/

/-- A claimed position that changes its group moves (R22). -/
theorem State.claimPos_moved (law : s.GroupLaw) (moves : s.table[q].owner = none ∨ s.table[q].cls.group? ≠ a.cls.group?) :
    Moved s (State.claimPos p a s q) q (s.table[q].claimed p a) := by
  unfold Binding.claimed
  cases owner : s.table[q].owner with
  | none =>
    rw [State.claimPos_unowned owner, if_pos rfl]
    refine State.acquire_moved p a ?_
    cases named : s.table[q].cls.group? with
    | none => rfl
    | some g =>
      obtain ⟨x, -, own⟩ := law.named q g named
      rw [owner] at own
      cases own
  | some h =>
    rw [State.claimPos_owned owner, if_neg (Option.some_ne_none h)]
    exact State.replacePos_moved a q (moves.resolve_left (by rw [owner]; exact Option.some_ne_none h))

theorem Binding.claimed_group {b : Binding} : (b.claimed p a).cls.group? = a.cls.group? := by
  unfold Binding.claimed
  split
  · rfl
  · exact b.replace_group a

theorem Binding.claimed_owner {b : Binding} (own : b.owner = none ∨ b.owner = some p) : (b.claimed p a).owner = some p := by
  unfold Binding.claimed
  split
  next => rfl
  next owned => exact own.resolve_left owned

theorem Regrouped.congr {leave join leave' join' : GroupId → List KeyPos} (h : Regrouped s t leave join)
    (groups : u.groups = t.groups) (left : ∀ g, leave' g = leave g) (joined : ∀ g, join' g = join g) :
    Regrouped s u leave' join' := by
  obtain rfl : leave' = leave := funext left
  obtain rfl : join' = join := funext joined
  intro g
  rw [groups]
  exact h g

/-- One more position is claimed, and the groups are regrouped and in their law. -/
theorem Regrouped.claimed {l : List KeyPos} (c : Claimed p a s t l) (law : t.GroupLaw)
    (h : Regrouped s t (fun g => l.filter (s.claimLeaves p a g)) (fun g => l.filter (s.claimJoins p a g)))
    (own : s.table[q].owner = none ∨ s.table[q].owner = some p) (fresh : q ∉ l)
    (room : ∀ g, a.cls = .select g → ∃ x, s.groups[g] = some x ∧ x.owner = p ∧
      x.count + ((l ++ [q]).filter (s.claimJoins p a g)).length ≤ 128) :
    (State.claimPos p a t q).GroupLaw ∧ Regrouped s (State.claimPos p a t q)
      (fun g => (l ++ [q]).filter (s.claimLeaves p a g)) (fun g => (l ++ [q]).filter (s.claimJoins p a g)) := by
  have record : t.table[q] = s.table[q] := by rw [c.table q, if_neg fresh]
  by_cases moves : t.table[q].owner = none ∨ t.table[q].cls.group? ≠ a.cls.group?
  · have moved := State.claimPos_moved (p := p) law moves
    have leaves : ∀ g, s.claimLeaves p a g q = true ↔ t.table[q].cls = .select g := fun g => by
      simp only [State.claimLeaves, Bool.and_eq_true, decide_eq_true_eq, ← record]
      refine ⟨fun h => h.1.2, fun named => ?_⟩
      obtain ⟨x, -, owner⟩ := law.named q g (KeyClass.eq_select.mpr named)
      have owned : t.table[q].owner ≠ none := by rw [owner]; exact Option.some_ne_none _
      refine ⟨⟨(record ▸ own).resolve_left owned, named⟩, fun into => moves.resolve_left owned ?_⟩
      rw [KeyClass.eq_select.mpr named, KeyClass.eq_select.mpr into]
    have joins : ∀ g, s.claimJoins p a g q = true ↔ (t.table[q].claimed p a).cls = .select g := fun g => by
      rw [← KeyClass.eq_select, Binding.claimed_group, KeyClass.eq_select]
      simp only [State.claimJoins, Bool.and_eq_true, Bool.not_eq_true', Bool.and_eq_false_iff, decide_eq_true_eq,
        decide_eq_false_iff_not, ← record]
      refine ⟨And.left, fun into => ⟨into, not_and_or.mp fun ⟨owned, named⟩ => ?_⟩⟩
      refine moves.resolve_left (by rw [owned]; exact Option.some_ne_none p) ?_
      rw [KeyClass.eq_select.mpr named, KeyClass.eq_select.mpr into]
    refine ⟨law.moved moved fun g hg => ?_, h.moved moved (fun g y cls hy => State.members_pos cls law hy) (fun g => ?_)
      fun g => ?_⟩
    · have into := (joins g).mpr hg
      obtain ⟨x, hx, owner, fits⟩ := room g (by
        rw [← KeyClass.eq_select, ← Binding.claimed_group (p := p) (b := t.table[q])]
        exact KeyClass.eq_select.mpr hg)
      obtain ⟨y, hy, kept, -, count, -⟩ := (h g).2 x hx
      refine ⟨y, hy, ?_, .inl ?_⟩
      · rw [Binding.claimed_owner (record ▸ own), kept, owner]
      · rw [filter_visited, if_pos into, List.length_append, List.length_singleton] at fits
        dsimp only at count
        omega
    · rw [filter_visited]
      exact congrArg _ (if_congr (leaves g) rfl rfl)
    · rw [filter_visited]
      exact congrArg _ (if_congr (joins g) rfl rfl)
  · obtain ⟨owned, same⟩ := not_or.mp moves
    have same := not_not.mp same
    obtain ⟨h', owner⟩ := Option.ne_none_iff_exists'.mp owned
    have groups : (State.claimPos p a t q).groups = t.groups := by
      rw [State.claimPos_owned owner]
      exact State.replacePos_stays a q same
    have claimed : (t.table[q].claimed p a).owner = t.table[q].owner := by
      rw [Binding.claimed, if_neg owned]
      rfl
    obtain ⟨owners, cls⟩ := relabelled (t.claimPos_table p a q) claimed fun g => by
      rw [← KeyClass.eq_select, Binding.claimed_group, ← same, KeyClass.eq_select]
    have alike : ∀ g, s.table[q].cls = .select g ↔ a.cls = .select g := fun g => by
      rw [← KeyClass.eq_select, ← record, same, KeyClass.eq_select]
    have leaves : ∀ g, s.claimLeaves p a g q = false := fun g => by
      simp only [State.claimLeaves, alike g]
      by_cases e : a.cls = .select g <;> simp [e]
    have joins : ∀ g, s.claimJoins p a g q = false := fun g => by
      have mine : s.table[q].owner = some p := own.resolve_left (record ▸ owned)
      simp only [State.claimJoins, alike g, mine]
      by_cases e : a.cls = .select g <;> simp [e]
    refine ⟨(Reselected.of_groups owners cls groups).groupLaw law, h.congr groups (fun g => ?_) fun g => ?_⟩
    · rw [filter_visited, leaves g]
      simp
    · rw [filter_visited, joins g]
      simp

/-- The groups along the walk of a CLAIM that passes (R22, R97). -/
theorem claim_walk_groups {qs : List KeyPos} (nodup : qs.Nodup)
    (own : ∀ q ∈ qs, s.table[q].owner = none ∨ s.table[q].owner = some p) (law : s.GroupLaw)
    (room : ∀ g, a.cls = .select g → ∃ x, s.groups[g] = some x ∧ x.owner = p ∧
      x.count + (qs.filter (s.claimJoins p a g)).length ≤ 128) :
    Regrouped s (qs.foldl (State.claimPos p a) s) (fun g => qs.filter (s.claimLeaves p a g))
      (fun g => qs.filter (s.claimJoins p a g)) := by
  have walk : Claimed p a s (qs.foldl (State.claimPos p a) s) qs ∧ (qs ⊆ qs ∧ qs.Nodup) ∧
      (qs.foldl (State.claimPos p a) s).GroupLaw ∧ Regrouped s (qs.foldl (State.claimPos p a) s)
        (fun g => qs.filter (s.claimLeaves p a g)) (fun g => qs.filter (s.claimJoins p a g)) := by
    refine walk_induct (P := fun v t => Claimed p a s t v ∧ (v ⊆ qs ∧ v.Nodup) ∧ t.GroupLaw ∧
      Regrouped s t (fun g => v.filter (s.claimLeaves p a g)) (fun g => v.filter (s.claimJoins p a g))) nodup
      ⟨.nil s p a, ⟨List.nil_subset _, List.nodup_nil⟩, law, fun g => ⟨fun h => h, fun x hx => ⟨x, hx, rfl, rfl, rfl, by
        cases x.selected <;> simp [Option.filter]⟩⟩⟩ fun v q t fresh hq ⟨c, ⟨within, once⟩, groups, regrouped⟩ => ?_
    have owned := own q hq
    have within' : v ++ [q] ⊆ qs := List.append_subset.mpr ⟨within, fun k hk => List.mem_singleton.mp hk ▸ hq⟩
    have once' : (v ++ [q]).Nodup := List.nodup_append.mpr ⟨once, List.nodup_singleton q, fun k hk j hj e => by
      rw [List.mem_singleton.mp hj] at e
      exact fresh (e ▸ hk)⟩
    refine ⟨c.step owned fresh, ⟨within', once'⟩, Regrouped.claimed c groups regrouped owned fresh fun g hg => ?_⟩
    obtain ⟨x, hx, owner, fits⟩ := room g hg
    have fewer := ((List.subperm_of_subset once' within').filter (s.claimJoins p a g)).length_le
    exact ⟨x, hx, owner, by omega⟩
  exact walk.2.2.2

end

theorem exec_claim_passes {f : Half} {n : Byte} {raw : RawAttrs} {qs : List KeyPos} (hw : WorkingOn s p (.claim f n raw))
    (range : rangeOf f n = some qs) (valid : raw.validate = some a)
    (pass : ∀ q ∈ qs, s.table[q].owner = none ∨ (s.table[q].owner = some p ∧ s.table[q].hold ≠ .fixed))
    (room : ∀ g, a.cls = .select g → ∃ x, s.groups[g] = some x ∧ x.owner = p ∧ x.count + s.joiners p g qs ≤ 128) :
    exec (.claim p) s = .next ((qs.foldl (State.claimPos p a) s).answer p .ok [0]) := by
  have good : s.groupRefusal p a = none := State.groupRefusal_eq_none_iff.mpr fun g ha => by
    obtain ⟨x, hx, owner, -⟩ := room g ha
    exact ⟨x, hx, owner⟩
  have fits : ∀ g, a.cls.group? = some g → s.membersOf a.cls.group? + s.joiners p g qs ≤ 128 ∨ s.joiners p g qs = 0 :=
    fun g ha => by
      obtain ⟨x, hx, -, fits⟩ := room g (KeyClass.eq_select.mp ha)
      rw [ha, State.membersOf_some hx]
      exact .inl fits
  have passes := State.claimFailure_append [] (fun q hq => State.claimRefusal_eq_none_iff.mpr (pass q hq))
    (s.membersOf a.cls.group?) 0 fits
  rw [List.append_nil] at passes
  rw [exec_claim_of_good_set hw valid, good, State.rangeRequest_passes range]
  exact passes.trans rfl

/-- The class that a replacement leaves (R21). -/
theorem Binding.replace_cls (b : Binding) (a : AttrSet) :
    (∀ l m, b.cls = .toggle l → a.cls = .toggle m → (b.replace a).cls = .toggle l) ∧
    ((∀ l m, ¬ (b.cls = .toggle l ∧ a.cls = .toggle m)) → (b.replace a).cls = a.cls) := by
  have cls : (b.replace a).cls = replaceClass b.cls a.cls := rfl
  rw [cls]
  refine ⟨fun l m old new => by rw [old, new]; rfl, fun other => ?_⟩
  unfold replaceClass
  split
  next l m old new => exact absurd ⟨old, new⟩ (other l m)
  next => rfl

/-- Settles O28: the walk claims each position in its turn, and the port is answered behind it. -/
theorem claimTakesTheRange : Obligations.ClaimTakesTheRange := by
  intro s p f n raw qs a hw range valid pass room
  have nodup := rangeOf_nodup range
  have own : ∀ q ∈ qs, s.table[q].owner = none ∨ s.table[q].owner = some p := fun q hq => (pass q hq).imp id And.left
  have walk := claim_walk_spec (a := a) nodup own
  have groups := claim_walk_groups (a := a) nodup own (s := s)
  have taken := exec_claim_passes hw range valid pass room
  generalize qs.foldl (State.claimPos p a) s = v at walk groups taken
  have ports : v.ports = s.ports := walk.changes .ports (by simp)
  have record : ∀ q : KeyPos, (v.answer p .ok [0]).table[q] = if q ∈ qs then s.table[q].claimed p a else s.table[q] :=
    fun q => by
      rw [(State.answer_frame _ _ _ _).1]
      exact walk.table q
  refine ⟨v.answer p .ok [0], taken, ?_, fun q hq free => ?_, fun q hq owned => ?_, fun q hq => ?_, ?_, ?_, fun law => ?_,
    fun none free => ⟨?_, ?_⟩, walk.changes.answer p .ok [0] _ (fun x hx => ?_) (by simp)⟩
  · rw [Answers, State.answer_working (hw.congr ports), State.setPort_ports, ports]
    rfl
  · have here := record q
    rw [if_pos hq] at here
    rw [here, Binding.claimed, if_pos free]
    rfl
  · have here := record q
    rw [if_pos hq, Binding.claimed, if_neg (by rw [owned]; exact Option.some_ne_none p)] at here
    rw [here]
    refine ⟨?_, s.table[q].replace_cls a⟩
    rw [← owned]
    rfl
  · have here := record q
    rwa [if_neg hq] at here
  · exact walk.drawn.of_same (by simp) (by simp) (by simp) (by simp) (by simp) (by simp)
  · exact walk.offered.congr (by simp) (by simp)
  · refine (groups law fun g hg => ?_).congr (by simp) (fun g => rfl) fun g => rfl
    obtain ⟨x, hx, owner, fits⟩ := room g hg
    refine ⟨x, hx, owner, ?_⟩
    have same : qs.filter (s.claimJoins p a g) = qs.filter (fun q =>
        !(decide (s.table[q].owner = some p) && decide (s.table[q].cls = .select g))) :=
      congrArg (qs.filter ·) (funext fun q => by simp only [State.claimJoins, hg, decide_true, Bool.true_and])
    rw [same]
    exact fits
  · rw [(State.answer_frame _ _ _ _).2.2.2.1]
    exact walk.still none free
  · have silent : qs.flatMap (s.claimReports p a) = [] := flatMap_eq_nil fun q hq =>
      if_neg fun h => h.2 ((free q hq).trans none.symm)
    have offered := walk.offered
    rw [silent] at offered
    rw [(State.answer_frame _ _ _ _).2.2.2.2.2.2.1, (State.answer_frame _ _ _ _).2.2.2.2.2.2.2.1]
    exact ⟨offered.1.trans (upd_same _ _), offered.2.trans (if_pos rfl)⟩
  · simp only [List.mem_cons, List.not_mem_nil, or_false] at hx ⊢
    rcases hx with rfl | rfl | rfl | rfl | rfl | rfl <;> simp

end Sys2Proof.Machine
end

section
/-! PROOF. Held records released one after another, and the end of a session (R71, R78, R163). -/

namespace Sys2Proof.Machine

section
variable {s t u : State} {q : KeyPos} {h : Port} {a b : Bool}

/-- Offers to all hosts behind offers to all. -/
theorem AllOffered.trans {f g : Port → List Report} (x : AllOffered s t f) (y : AllOffered t u g)
    (time : t.deskTime = s.deskTime) (mode : ∀ k : Port, t.ports[k].lineMode = s.ports[k].lineMode) :
    AllOffered s u (fun k => f k ++ g k) := by
  intro k
  obtain ⟨queue, line⟩ := x k
  obtain ⟨queue', line'⟩ := y k
  refine ⟨by rw [queue', queue, time, List.foldl_append], ?_⟩
  rw [line', mode k]
  by_cases none : g k = []
  · simp only [none, line, queue', List.append_nil, List.foldl_nil, if_true]
  · have some : f k ++ g k ≠ [] := by simp [none]
    simp only [none, some, if_false]

theorem Offered.all {l : List Report} (x : Offered s t h l) : AllOffered s t (fun k => if k = h then l else []) :=
  (AllOffered.nil s).step x rfl (fun _ => rfl) fun _ => rfl

/-! ## One record -/

/-- What a record released offers, and to whom (R71). -/
theorem State.releaseKey_offered {r : HeldRecord} (found : s.heldAt q = some r) (a b : Bool) :
    AllOffered s (s.releaseKey a b q) (fun h => s.releaseReport h a b r) := by
  obtain ⟨-, rfl⟩ := State.heldAt_mem found
  cases opened : r.openedTo with
  | none =>
    have silent : (fun h => s.releaseReport h a b r) = fun _ => [] := funext fun h => by simp only [State.releaseReport, opened]
    rw [silent, State.releaseKey_silent found (.inl opened)]
    exact (AllOffered.nil s).congr (by simp [State.removeHeld]) (by simp [State.removeHeld])
  | some o =>
    cases closing : r.closingDue with
    | false =>
      have silent : (fun h => s.releaseReport h a b r) = fun _ => [] := funext fun h => by
        simp [State.releaseReport, opened, closing]
      rw [silent, State.releaseKey_silent found (.inr closing)]
      exact (AllOffered.nil s).congr (by simp [State.removeHeld]) (by simp [State.removeHeld])
    | true =>
      have owed : (fun h => s.releaseReport h a b r) = fun h => if h = o.host then
          [s.noticeOf .release r.pos r.repeatCount (a || r.resync) b] else [] := funext fun h => by
        simp only [State.releaseReport, opened, closing, and_true, eq_comm]
      rw [owed, State.releaseKey_owed found opened closing]
      have offered := s.offer_offered o.host (s.noticeOf .release r.pos r.repeatCount (a || r.resync) b)
      exact offered.all.congr (by simp [State.removeHeld]; rfl) (by simp [State.removeHeld]; rfl)

theorem State.releaseKey_changes (s : State) (a b : Bool) (q : KeyPos) :
    OnlyChanges s (s.releaseKey a b q) [.held, .queues, .noteLow, .derived, .dirty] := by
  intro x hx
  cases x
  case held | queues | noteLow | derived | dirty => exact absurd (by simp) hx
  all_goals simp [Part.Same]

theorem State.releaseKey_dirty (s : State) (a b : Bool) {q : KeyPos} {k : Fin 128} (other : blockOf q ≠ k) :
    (s.releaseKey a b q).dirty[k] = s.dirty[k] := by
  have drawn : ∀ u : State, u.dirty = s.dirty → (u.rederive q).dirty[k] = s.dirty[k] := fun u same => by
    rw [← same]
    exact upd_ne _ _ _ _ other
  unfold State.releaseKey
  split
  · rfl
  · refine drawn _ ?_
    split
    · split <;> simp [State.removeHeld]
    · rfl

/-! ## The walk -/

/-- The notices that host `h` is offered for the record of a key released. -/
def State.closingReports (s : State) (h : Port) (a b : Bool) (q : KeyPos) : List Report :=
  (s.heldAt q).toList.flatMap (s.releaseReport h a b)

/-- From `s` to `t` the keys of `v` have been released, in their order. -/
structure KeysReleased (a b : Bool) (s t : State) (v : List KeyPos) : Prop where
  held : t.held = s.held.filter (fun r => decide (r.pos ∉ v))
  offered : AllOffered s t (fun h => v.flatMap (s.closingReports h a b))
  changes : OnlyChanges s t [.held, .queues, .noteLow, .derived, .dirty]

theorem KeysReleased.nil (s : State) (a b : Bool) : KeysReleased a b s s [] where
  held := by simp
  offered := .nil s
  changes := .refl s _

theorem State.releaseReport_congr (table : t.table = s.table) (r : HeldRecord) :
    t.releaseReport h a b r = s.releaseReport h a b r := by
  simp only [State.releaseReport, State.noticeOf, table]

theorem KeysReleased.step {v : List KeyPos} (w : KeysReleased a b s t v) (fresh : q ∉ v) :
    KeysReleased a b s (t.releaseKey a b q) (v ++ [q]) := by
  have mem : ∀ k, k ∈ v ++ [q] ↔ k ∈ v ∨ k = q := fun k => by rw [List.mem_append, List.mem_singleton]
  have record : t.heldAt q = s.heldAt q := by
    rw [State.heldAt, w.held, List.find?_filter, State.heldAt]
    refine congrArg (s.held.find? ·) (funext fun r => ?_)
    by_cases e : r.pos = q
    · subst e
      simp [fresh]
    · simp [e]
  have table : t.table = s.table := w.changes .table (by simp)
  have ports : t.ports = s.ports := w.changes .ports (by simp)
  have offers : AllOffered t (t.releaseKey a b q) (fun h => s.closingReports h a b q) := by
    cases found : t.heldAt q with
    | none =>
      have silent : (fun h => s.closingReports h a b q) = fun _ => [] := funext fun h => by
        rw [State.closingReports, ← record, found]
        rfl
      rw [silent, State.releaseKey_absent (State.heldAt_none.mp found)]
      exact .nil t
    | some r =>
      have one : (fun h => s.closingReports h a b q) = fun h => t.releaseReport h a b r := funext fun h => by
        rw [State.closingReports, ← record, found, State.releaseReport_congr table]
        simp
      rw [one]
      exact State.releaseKey_offered found a b
  refine ⟨?_, ?_, w.changes.trans (t.releaseKey_changes a b q) _ (fun _ h => h) fun _ h => h⟩
  · rw [t.releaseKey_held, w.held, List.filter_filter]
    refine congrArg (s.held.filter ·) (funext fun r => ?_)
    rw [← Bool.decide_and]
    exact decide_eq_decide.mpr (by rw [mem, not_or, and_comm])
  · have all := w.offered.trans offers (w.changes .deskTime (by simp)) fun k => by rw [ports]
    have same : (fun h => (v ++ [q]).flatMap (s.closingReports h a b)) =
        fun h => v.flatMap (s.closingReports h a b) ++ s.closingReports h a b q := funext fun h => by
      rw [List.flatMap_append, List.flatMap_singleton]
    rw [same]
    exact all

theorem release_keys_spec (a b : Bool) {qs : List KeyPos} (nodup : qs.Nodup) :
    KeysReleased a b s (qs.foldl (fun t q => t.releaseKey a b q) s) qs :=
  walk_induct (P := fun v t => KeysReleased a b s t v) (effect := fun t q => t.releaseKey a b q) nodup (.nil s a b)
    fun _ _ _ fresh _ w => w.step fresh

/-- The records of a set without two for a position, released by their positions. -/
theorem State.closingReports_filter (one : s.HeldLaw) (P : HeldRecord → Bool) :
    ((s.held.filter P).map HeldRecord.pos).flatMap (s.closingReports h a b) =
      (s.held.filter P).flatMap (s.releaseReport h a b) := by
  rw [List.flatMap_map]
  refine List.flatMap_congr fun r hr => ?_
  rw [State.closingReports, State.heldAt_of_mem one (List.mem_filter.mp hr).1]
  simp

end

end Sys2Proof.Machine
end

section
/-! PROOF. Failed exchanges, the enabling and the disabling of links (R146 to R149, R155, R163, R165). -/

namespace Sys2Proof.Machine

/-! ## A panel notice -/

section
variable (s : State) (n : LinkId)

theorem State.offer_onlyChanges (p : Port) (r : Report) : OnlyChanges s (s.offer p r) [.queues, .noteLow] := by
  intro x hx
  cases x
  case queues | noteLow => exact absurd (by simp) hx
  all_goals simp [Part.Same]

/-- A panel notice is offered to every host. -/
theorem State.panelNotice_offered (k : NoticeKind) (e : Nat) :
    AllOffered s (s.panelNotice k n (BitVec.ofNat 16 e)) (fun _ => [panelReport k n e]) := by
  have walk : AllOffered s (s.panelNotice k n (BitVec.ofNat 16 e))
      (fun h => if h ∈ List.finRange 4 then [panelReport k n e] else []) ∧
      OnlyChanges s (s.panelNotice k n (BitVec.ofNat 16 e)) [.queues, .noteLow] := by
    refine walk_induct (P := fun v t => AllOffered s t (fun h => if h ∈ v then [panelReport k n e] else []) ∧
        OnlyChanges s t [.queues, .noteLow]) (effect := fun t p => t.offer p (panelReport k n e))
      (List.nodup_finRange 4) ⟨by simpa using AllOffered.nil s, .refl s _⟩ ?_
    rintro v p t fresh - ⟨offered, changes⟩
    refine ⟨offered.step (t.offer_offered p _) (changes .deskTime (by simp)) (fun h => ?_) fun h => ?_,
      changes.trans (t.offer_onlyChanges p _) _ (fun _ h => h) fun _ h => h⟩
    · rw [changes .ports (by simp)]
    · by_cases e : h = p
      · subst e
        simp [fresh]
      · simp [e]
  simpa using walk.1

/-! ## The session that ends (R78, R163) -/

theorem State.heldOn_eq : s.heldOn n = (s.held.filter (fun r => decide (panelOf r.pos = n))).map HeldRecord.pos := by
  rw [State.heldOn, List.filter_map]
  rfl

theorem State.releasePanel_offered (one : s.HeldLaw) : AllOffered s (s.releasePanel n) (s.lostReports n) := by
  have walk := release_keys_spec (s := s) false true (one.distinct.filter (fun q => decide (panelOf q = n)))
  have reports : s.lostReports n = fun h => (s.heldOn n).flatMap (s.closingReports h false true) := funext fun h => by
    rw [State.heldOn_eq, State.closingReports_filter one, State.lostReports]
  rw [reports]
  exact walk.offered

/-- The lamps of the other panels stand. -/
theorem State.releasePanel_dirty {b : Fin 128} (other : b.1 / 16 ≠ n.1) : (s.releasePanel n).dirty[b] = s.dirty[b] := by
  have walk : ∀ (l : List KeyPos) (t : State), (∀ q ∈ l, panelOf q = n) →
      (l.foldl (fun t q => t.releaseKey false true q) t).dirty[b] = t.dirty[b] := by
    intro l
    induction l with
    | nil => exact fun t _ => rfl
    | cons q l ih =>
      intro t panel
      have away : blockOf q ≠ b := fun e => other (by
        rw [← e, ← panel q (by simp)]
        simp only [blockOf, panelOf]
        omega)
      rw [List.foldl_cons, ih _ fun k hk => panel k (by simp [hk]), t.releaseKey_dirty false true away]
  exact walk _ s fun q hq => (State.mem_heldOn.mp hq).1

theorem State.sessionGone_removes : (s.sessionGone n).held = s.held.filter (fun r => decide (panelOf r.pos ≠ n)) := by
  simp [State.sessionGone, State.releasePanel_held]

theorem State.sessionGone_sent (q : KeyPos) :
    (s.sessionGone n).sent[q] = if panelOf q = n then none else s.sent[q] := by
  rw [State.sessionGone, State.forgetSent_sent]
  simp

theorem State.sessionGone_dirty (b : Fin 128) :
    (s.sessionGone n).dirty[b] = if b.1 / 16 = n.1 then true else s.dirty[b] := by
  rw [State.sessionGone, State.forgetSent_dirty]
  split
  next => rfl
  next other =>
    have stands : ((s.releasePanel n).panelNotice .panelDown n 0).dirty = (s.releasePanel n).dirty := by simp
    rw [stands, s.releasePanel_dirty n other]

/-- RELEASE with LOST where it is owed, then PANEL_DOWN to all (R78). -/
theorem State.sessionGone_offered (one : s.HeldLaw) :
    AllOffered s (s.sessionGone n) (fun h => s.lostReports n h ++ [panelReport .panelDown n 0]) := by
  have offered := (s.releasePanel_offered n one).trans ((s.releasePanel n).panelNotice_offered n .panelDown 0) (by simp)
    fun k => by simp
  exact offered.congr (by simp [State.sessionGone]) (by simp [State.sessionGone])

theorem State.sessionGone_changes :
    OnlyChanges s (s.sessionGone n) [.held, .queues, .noteLow, .sent, .derived, .dirty] := by
  intro x hx
  cases x
  case held | queues | noteLow | sent | derived | dirty => exact absurd (by simp) hx
  all_goals simp [Part.Same, State.sessionGone]

end

/-! ## Failed exchanges -/

theorem fits_iff (o : LinkOrder) (r : Reply) : fits o r = true ↔
    (o = .identify ∧ ∃ ty c, r = .ident ty c ∧ 1 ≤ c.toNat ∧ c.toNat ≤ 128) ∨ (o = .image ∧ ∃ keys, r = .image keys) ∨
    ((∃ a, o = .poll a) ∧ (r = .nothing ∨ r = .lost ∨ ∃ bitS press key, r = .edge bitS press key)) ∨
    ((∃ b v, o = .lamp b v) ∧ r = .accept) := by
  cases o <;> cases r <;> simp [fits, and_assoc]

theorem raiseFailed_eq (k : Nat) : raiseFailed k = min (k + 1) (max 65535 k) :=
  min_succ_max k 65535

/-- The count of lost sessions rises by 1 and stays at 255 (R163). -/
theorem LinkEngine.lostSession_eq (l : LinkEngine) (x : Session) : l.lostSession x =
    { l with
      session := x, failures := 0, edges := l.edges.map (fun e => { e with live := false })
      lostCount := min (l.lostCount + 1) (max 255 l.lostCount) } := by
  have count : (if l.lostCount < Config.maxLost then l.lostCount + 1 else l.lostCount) =
      min (l.lostCount + 1) (max 255 l.lostCount) := min_succ_max l.lostCount 255
  rw [LinkEngine.lostSession, count]
  rfl

section
variable {s : State} {n : LinkId} {x : Exchange} {c : Instr}

/-- The engine as its exchange has failed (R146, R148). -/
def LinkEngine.failed (l : LinkEngine) : LinkEngine :=
  { l with inFlight := none, lck := .high, failedCount := raiseFailed l.failedCount }

/-- A command by which the exchange in flight fails. -/
def Fails (n : LinkId) (o : LinkOrder) (c : Instr) : Prop :=
  (∃ why, c = .exchangeFailed n why) ∨ (∃ r : Reply, fits o r = false ∧ c = r.command n)

theorem exec_fails (flight : s.links[n].inFlight = some x) (fails : Fails n x.order c) :
    exec c s = .next (s.failExchange n) := by
  obtain ⟨why, rfl⟩ | ⟨r, bad, rfl⟩ := fails
  · rfl
  · have run : exec (r.command n) s = .next (s.endExchange n r) := by cases r <;> rfl
    rw [run, State.endExchange, flight]
    simp only [bad, Bool.false_eq_true, if_false]

theorem State.failExchange_probing {d : Time} (flight : s.links[n].inFlight = some x)
    (session : s.links[n].session = .probing d) : s.failExchange n = s.setLink n s.links[n].failed := by
  simp only [State.failExchange, flight, session]
  rfl

/-- The order sent again: the order that failed, or IMAGE in SYNCING (R149). -/
def Session.retry (x : Session) (o : LinkOrder) : LinkOrder :=
  match x with
  | .syncing _ _ _ => .image
  | .off | .probing _ | .up _ _ _ | .holdoff _ => o

theorem State.failExchange_session (flight : s.links[n].inFlight = some x)
    (session : s.links[n].session.isSession = true) : s.failExchange n =
      (s.setLink n s.links[n].failed).failInSession n (s.links[n].session.retry x.order) := by
  cases hs : s.links[n].session with
  | syncing c i last | up i last start =>
    simp only [State.failExchange, flight, hs]
    rfl
  | off | probing d | holdoff d =>
    rw [hs] at session
    cases session

/-- The first and the second failure in turn. -/
theorem State.failInSession_retries (l : LinkEngine) (o : LinkOrder) (few : l.failures < 2) :
    (s.setLink n l).failInSession n o = s.setLink n
      { l with failures := l.failures + 1, inFlight := some ⟨o, l.failures + 2⟩, lck := .clocking } := by
  rw [State.failInSession, State.setLink_link, if_neg (by simp only [Config.maxFailures]; omega), State.setLink_setLink,
    State.setLink_beginOrder]

/-- The third failure in turn ends the session. -/
theorem State.failInSession_ends (l : LinkEngine) (o : LinkOrder) (third : l.failures = 2) :
    (s.setLink n l).failInSession n o = (s.sessionGone n).setLink n
      (l.lostSession (.holdoff (later s.deskTime Config.holdoffTime))) := by
  rw [State.failInSession, State.setLink_link, if_pos (by simp only [Config.maxFailures]; omega), State.endSession_eq]
  rfl

end

/-- Settles O55: the table of good replies, then a failed exchange by the session and the failures before it. -/
theorem failedExchanges : Obligations.FailedExchanges := by
  refine ⟨fits_iff, fun s n o k c flight fails => ?_⟩
  intro failed
  have count : raiseFailed s.links[n].failedCount = failed := raiseFailed_eq _
  have taken := exec_fails flight fails
  refine ⟨fun d session => ?probing, fun session few => ?retry, fun session third => ?ends⟩
  case probing =>
    rw [State.failExchange_probing flight session, LinkEngine.failed, count] at taken
    exact ⟨_, taken, rfl, onlyChanges_setLink _ _ _⟩
  case retry =>
    rw [State.failExchange_session flight session,
      State.failInSession_retries s.links[n].failed _ (by exact few)] at taken
    refine ⟨_, taken, ?_, onlyChanges_setLink _ _ _⟩
    show upd s.links n _ = upd s.links n _
    simp only [LinkEngine.failed, count]
    cases s.links[n].session <;> rfl
  case ends =>
    rw [State.failExchange_session flight session, State.failInSession_ends s.links[n].failed _ (by exact third),
      LinkEngine.lostSession_eq] at taken
    refine ⟨_, taken, ⟨_, later_toNat _ _, ?_⟩, s.sessionGone_removes n, s.sessionGone_sent n, s.sessionGone_dirty n,
      s.sessionGone_offered n, ?_⟩
    · show upd (s.sessionGone n).links n _ = _
      rw [s.sessionGone_links n]
      simp only [LinkEngine.failed, count]
      rfl
    · exact (s.sessionGone_changes n).trans (onlyChanges_setLink _ _ _) _ (by simp) (by simp)

/-! ## LINK_ENABLE and LINK_DISABLE -/

section
variable {s t : State} {n : LinkId}

/-- What SET LINKS in work is answered as a link's change has been taken (R166). -/
def Settles (s t : State) (n : LinkId) : Prop :=
  ((∀ k : LinkId, k ≠ n → s.links[k].handed = none) → Answers s t 0 .ok 0x70 []) ∧
  ((∃ k : LinkId, k ≠ n ∧ s.links[k].handed ≠ none) → t.ports = s.ports)

theorem State.settleLinks_links (s : State) : s.settleLinks.links = s.links := by
  simp

theorem State.settleLinks_onlyChanges (s : State) : OnlyChanges s s.settleLinks [.ports] := by
  unfold State.settleLinks
  split
  · exact s.answer_onlyChanges 0 .ok []
  · exact .refl s _

/-- The last change taken answers SET LINKS. -/
theorem settles_of {m e w : Byte} (hw : WorkingOn s 0 (.setLinks m e w)) {l : LinkEngine} (taken : l.handed = none)
    (ports : t.ports = s.ports) (links : t.links = upd s.links n l) : Settles s t.settleLinks n := by
  have working : WorkingOn t 0 (.setLinks m e w) := by rw [WorkingOn, ports]; exact hw
  have all : t.allTaken = true ↔ ∀ k : LinkId, k ≠ n → s.links[k].handed = none := by
    rw [State.allTaken_iff]
    refine ⟨fun h k other => ?_, fun h k => ?_⟩
    · have := h k
      rwa [links, upd_ne _ _ _ _ (Ne.symm other)] at this
    · rw [links]
      by_cases e : k = n
      · subst e
        rw [upd_self, taken]
      · rw [upd_ne _ _ _ _ (Ne.symm e), h k e]
  rw [State.settleLinks_eq working]
  refine ⟨fun rest => ?_, fun ⟨k, other, waits⟩ => ?_⟩
  · rw [if_pos (all.mpr rest), State.answer_working working, Answers, ← ports]
    rfl
  · rw [if_neg fun h => waits (all.mp h k other)]
    exact ports

/-- A link released drives nothing. -/
theorem LinkEngine.lda_idle {l : LinkEngine} (idle : l.inFlight = none) (i : Nat) : l.lda i = none := by
  rw [LinkEngine.lda, idle]
  rfl

theorem exec_linkEnable (handed : s.links[n].handed = some true) : exec (.linkEnable n) s = .next
    (if s.links[n].session = .off then (s.setLink n { s.links[n] with handed := none }).probe n
      else s.setLink n { s.links[n] with handed := none }).settleLinks :=
  congrArg Host.Outcome.next (if_pos handed)

theorem exec_linkDisable (handed : s.links[n].handed = some false) : exec (.linkDisable n) s = .next
    ((s.setLink n s.links[n].disabled).disableSession n).settleLinks :=
  congrArg Host.Outcome.next (if_pos handed)

theorem State.disableSession_idle (none : s.links[n].session.isSession = false) :
    (s.setLink n s.links[n].disabled).disableSession n = s.setLink n { s.links[n].disabled with session := .off } := by
  have here : (s.setLink n s.links[n].disabled).links[n].session = s.links[n].session := by rw [State.setLink_link]; rfl
  cases hs : s.links[n].session with
  | off =>
    have same : s.links[n].disabled = { s.links[n].disabled with session := .off } := by rw [← hs]; rfl
    simp only [State.disableSession, here, hs]
    exact congrArg _ same
  | probing d | holdoff d =>
    simp only [State.disableSession, here, hs]
    rw [State.setSession, State.setLink_link, State.setLink_setLink]
  | syncing c i last | up i last start =>
    rw [hs] at none
    cases none

theorem State.disableSession_session (session : s.links[n].session.isSession = true) :
    (s.setLink n s.links[n].disabled).disableSession n =
      (s.sessionGone n).setLink n (s.links[n].disabled.lostSession .off) := by
  have here : (s.setLink n s.links[n].disabled).links[n].session = s.links[n].session := by rw [State.setLink_link]; rfl
  cases hs : s.links[n].session with
  | syncing c i last | up i last start =>
    simp only [State.disableSession, here, hs]
    exact s.endSession_eq n _ _
  | off | probing d | holdoff d =>
    rw [hs] at session
    cases session

end

/-- Settles O50: LINK_ENABLE by whether the link is in OFF, LINK_DISABLE by whether it has a session. -/
theorem linksAreEnabledAndDisabled : Obligations.LinksAreEnabledAndDisabled := by
  intro s n m e w hw settles
  refine ⟨fun handed => ⟨fun off => ?enable, fun on => ?takes⟩, fun handed => ?disable⟩
  case enable =>
    have taken := exec_linkEnable handed
    rw [if_pos off, State.probe_eq, State.setLink_link, State.setLink_setLink] at taken
    refine ⟨_, taken, settles_of hw rfl rfl rfl, ⟨_, later_toNat _ _, ?_⟩, ?_⟩
    · exact State.settleLinks_links _
    · exact (onlyChanges_setLink _ _ _).trans (State.settleLinks_onlyChanges _) _ (by simp) (by simp)
  case takes =>
    have taken := exec_linkEnable handed
    rw [if_neg on] at taken
    refine ⟨_, taken, settles_of hw rfl rfl rfl, by simp [State.setLink], ?_⟩
    exact (onlyChanges_setLink _ _ _).trans (State.settleLinks_onlyChanges _) _ (by simp) (by simp)
  case disable =>
    intro gone
    have taken := exec_linkDisable handed
    refine ⟨fun none => ?idle, fun session => ?ends⟩
    case idle =>
      rw [State.disableSession_idle none] at taken
      have links := (s.setLink n { s.links[n].disabled with session := .off }).settleLinks_links
      refine ⟨_, taken, settles_of hw rfl rfl rfl, links, fun i => ?_, ?_⟩
      · rw [links, State.setLink_link]
        exact LinkEngine.lda_idle rfl i
      · exact (onlyChanges_setLink _ _ _).trans (State.settleLinks_onlyChanges _) _ (by simp) (by simp)
    case ends =>
      rw [State.disableSession_session session] at taken
      have gone := (s.sessionGone_changes n).trans
        (onlyChanges_setLink (s.sessionGone n) n (s.links[n].disabled.lostSession .off))
        [.links, .ports, .held, .queues, .noteLow, .sent, .derived, .dirty] (by simp) (by simp)
      have settled := ((s.sessionGone n).setLink n (s.links[n].disabled.lostSession .off)).settleLinks_onlyChanges
      have engine : s.links[n].disabled.lostSession .off = _ := LinkEngine.lostSession_eq _ _
      have links : ((s.sessionGone n).setLink n (s.links[n].disabled.lostSession .off)).settleLinks.links =
          upd s.links n (s.links[n].disabled.lostSession .off) :=
        (State.settleLinks_links _).trans (congrArg (upd · n _) (s.sessionGone_links n))
      refine ⟨_, taken, settles_of hw rfl (s.sessionGone_changes n .ports (by simp)) (congrArg (upd · n _) (s.sessionGone_links n)), ?_,
        fun i => ?_, Eq.trans (settled .held (by simp)) (s.sessionGone_removes n), fun q => ?_, fun one => ?_,
        fun x hx => ?_⟩
      · rw [links, engine]
        rfl
      · rw [links, upd_self]
        exact LinkEngine.lda_idle rfl i
      · have sent := settled .sent (by simp)
        simp only [Part.Same] at sent
        rw [sent]
        exact s.sessionGone_sent n q
      · exact (s.sessionGone_offered n one).congr (settled .queues (by simp)) (settled .noteLow (by simp))
      · exact (gone x hx).trans (settled x fun e => hx (by rw [List.mem_singleton.mp e]; simp))

end Sys2Proof.Machine
end

section
/-! PROOF. The presses of a reconciliation (R64 to R68, R76). -/

namespace Sys2Proof.Machine

section
variable {s t u : State} {q : KeyPos} {k : Port} {g : GroupId}

/-! ## One press with room -/

/-- From `s` to `t` the key `q` is given the record `r`, with these notices (R64 to R68, R95). -/
structure KeyMade (resync : Bool) (s t : State) (q : KeyPos) (r : HeldRecord) (reports : Port → List Report) : Prop where
  table : t.table = upd s.table q s.table[q].pressed
  held : t.held = s.held ++ [r]
  record : r.pos = q ∧ r.resync = resync ∧ r.pressedAt = s.deskTime ∧ r.repeatCount = 0
  offered : AllOffered s t reports
  marked : ∀ h, ∀ x ∈ reports h, x.resync = resync

theorem marked_nil (resync : Bool) : ∀ h : Port, ∀ x ∈ (fun _ => [] : Port → List Report) h, x.resync = resync := by
  simp

theorem marked_one {x : Report} {resync : Bool} (hx : x.resync = resync) (k : Port) :
    ∀ h, ∀ y ∈ (fun h => if h = k then [x] else [] : Port → List Report) h, y.resync = resync := by
  intro h y hy
  dsimp only at hy
  split at hy
  · rw [List.mem_singleton.mp hy, hx]
  · cases hy

/-- The record of a press that is not opened. -/
theorem KeyMade.unopened {resync : Bool} (eq : t = u.rederive q) (table : u.table = s.table)
    (same : s.table[q].pressed = s.table[q]) (held : u.held = (s.withNew q resync).held) {reports : Port → List Report}
    (offered : AllOffered s u reports) (marked : ∀ h, ∀ x ∈ reports h, x.resync = resync) :
    KeyMade resync s t q (newRecord q s.deskTime resync) reports := by
  subst eq
  refine ⟨?_, ?_, ⟨rfl, rfl, rfl, rfl⟩, offered.congr (by simp) (by simp), marked⟩
  · rw [same, upd_get, ← table]
    simp
  · rw [(State.rederive_frame _ _).2.1, held]
    rfl

/-- The record of a SELECT key that is opened, SELECTED offered after what was offered before. -/
theorem KeyMade.selected {resync : Bool} (fresh : ∀ r ∈ s.held, r.pos ≠ q) (eq : t.table = s.table ∧
      t.held = (u.openRecord q k false .held .selected (countHalf g.1) resync).held ∧
      t.queues = (u.openRecord q k false .held .selected (countHalf g.1) resync).queues ∧
      t.noteLow = (u.openRecord q k false .held .selected (countHalf g.1) resync).noteLow)
    (same : s.table[q].pressed = s.table[q]) (held : u.held = (s.withNew q resync).held) (time : u.deskTime = s.deskTime)
    (ports : u.ports = s.ports) {reports : Port → List Report} (offered : AllOffered s u reports)
    (marked : ∀ h, ∀ x ∈ reports h, x.resync = resync) : ∃ r reports, KeyMade resync s t q r reports := by
  obtain ⟨table, records, queues, lines⟩ := eq
  have opens := u.openRecord_offered k (q := q) false .held .selected (countHalf g.1) resync
  refine ⟨_, _, by rw [same, upd_get, table], records.trans (State.openRecord_held fresh held k _ _ _ _),
    ⟨rfl, rfl, rfl, rfl⟩, (offered.trans opens.all time fun h => by rw [ports]).congr queues lines, fun h x hx => ?_⟩
  obtain hx | hx := List.mem_append.mp hx
  · exact marked h x hx
  · exact marked_one rfl k h x hx

/-- A press of a SELECT key. -/
theorem State.pressKey_select_made (fresh : ∀ r ∈ s.held, r.pos ≠ q) (room : s.held.length < 16)
    (owner : s.table[q].owner = some k) (select : s.table[q].cls = .select g) (resync : Bool) :
    ∃ r reports, KeyMade resync s (s.pressKey resync q) q r reports := by
  have eq := State.pressKey_select fresh room owner select resync
  have same : s.table[q].pressed = s.table[q] := Binding.pressed_same fun l e => by rw [select] at e; cases e
  have silent : (s.withNew q resync).pressSelect q k g resync = s.withNew q resync →
      ∃ r reports, KeyMade resync s (s.pressKey resync q) q r reports := fun still => by
    rw [still] at eq
    exact ⟨_, _, .unopened (s := s) eq rfl same rfl ((AllOffered.nil s).congr rfl rfl) (marked_nil resync)⟩
  cases hg : (s.withNew q resync).groups[g] with
  | none => exact silent (by simp only [State.pressSelect, hg])
  | some x =>
    cases sel : x.selected with
    | none =>
      rw [State.pressSelect_first hg sel] at eq
      exact KeyMade.selected (k := k) (g := g) (u := (s.withNew q resync).setGroup g (some { x with selected := some q })) fresh
        (by rw [eq]; simp [State.withNew]) same rfl rfl rfl ((AllOffered.nil s).congr rfl rfl) (marked_nil resync)
    | some old =>
      by_cases other : old = q
      · subst other
        cases mode : x.mode with
        | strict => exact silent (State.pressSelect_strict hg sel mode resync)
        | loose =>
          rw [State.pressSelect_loose hg sel mode] at eq
          have offered := (State.offer_offered ((s.withNew old resync).setGroup g (some { x with selected := none })) k
            ((s.withNew old resync).keyReport .deselected old (countHalf g.1) resync false)).of_same (s' := s) rfl rfl rfl rfl
          exact ⟨_, _, .unopened eq (by simp [State.withNew]) same (by simp) offered.all (marked_one rfl k)⟩
      · rw [State.pressSelect_change hg sel other] at eq
        have offered := (State.offer_offered ((s.withNew q resync).setGroup g (some { x with selected := some q })) k
          (((s.withNew q resync).setGroup g (some { x with selected := some q })).keyReport .deselected old (countHalf g.1)
            resync false)).of_same (s' := s) rfl rfl rfl rfl
        exact KeyMade.selected (k := k) (g := g) fresh (by rw [eq]; simp [State.withNew]) same (by simp) (by simp [State.withNew])
          (by simp [State.withNew]) offered.all (marked_one rfl k)

theorem State.pressedRecord_found (owner : s.table[q].owner = some k) (plain : s.table[q].cls.group? = none) :
    s.pressedRecord q k true = s.foundRecord q := by
  cases cls : s.table[q].cls with
  | select g =>
    rw [cls] at plain
    cases plain
  | momentary | pressOnly | toggle l =>
    simp only [State.pressedRecord, State.foundRecord, owner, cls]
    rfl
  | repeating i =>
    have due : later s.deskTime (tenths s.profiles[i].delay) =
        BitVec.ofNat 16 (s.deskTime.toNat + 10 * s.profiles[i].delay.toNat) := by
      apply BitVec.eq_of_toNat_eq
      simp [later, tenths, Config.repeatUnit]
    simp only [State.pressedRecord, State.foundRecord, owner, cls, ← due]
    rfl

theorem State.openingReport_found (owner : s.table[q].owner = some k) (plain : s.table[q].cls.group? = none) (h : Port) :
    (if h = k then [s.openingReport q true] else []) = s.foundReport h q := by
  simp only [State.foundReport, owner, Option.some.injEq, eq_comm]
  refine if_congr Iff.rfl ?_ rfl
  cases cls : s.table[q].cls with
  | select g =>
    rw [cls] at plain
    cases plain
  | momentary | pressOnly | toggle l | repeating i =>
    simp only [State.openingReport, cls]
    rfl

/-- A key that finds room is given a record; where it is not SELECT, the record and the notices of its class. -/
theorem State.pressKey_made (fresh : ∀ r ∈ s.held, r.pos ≠ q) (room : s.held.length < 16) :
    ∃ r reports, KeyMade true s (s.pressKey true q) q r reports ∧ (s.table[q].cls.group? = none →
      (s.pressKey true q).groups = s.groups ∧ r = s.foundRecord q ∧ reports = fun h => s.foundReport h q) := by
  cases owner : s.table[q].owner with
  | none =>
    have eq := State.pressKey_unowned fresh room owner true
    have same : s.table[q].pressed = s.table[q] := by simp only [Binding.pressed, owner]
    refine ⟨_, _, .unopened (s := s) eq rfl same rfl ((AllOffered.nil s).congr rfl rfl) (marked_nil true), fun _ => ⟨?_, ?_, ?_⟩⟩
    · rw [eq]
      simp [State.withNew]
    · simp only [State.foundRecord, owner]
      rfl
    · funext h
      rw [State.foundReport, owner, if_neg (Option.some_ne_none h).symm]
  | some k =>
    cases group : s.table[q].cls.group? with
    | none =>
      obtain ⟨table, held, offered, -, changes⟩ := State.pressKey_opens fresh room owner group true
      refine ⟨_, _, ⟨table, held, ⟨rfl, rfl, rfl, rfl⟩, offered.all, marked_one rfl k⟩, fun _ => ⟨changes .groups (by simp),
        State.pressedRecord_found owner group, funext (State.openingReport_found owner group)⟩⟩
    | some g =>
      obtain ⟨r, reports, made⟩ := State.pressKey_select_made fresh room owner (KeyClass.eq_select.mp group) true
      exact ⟨r, reports, made, fun e => by cases e⟩

theorem State.pressKey_changes (s : State) (resync : Bool) (q : KeyPos) : OnlyChanges s (s.pressKey resync q)
    [.table, .held, .groups, .queues, .noteLow, .derived, .dirty] := by
  intro x hx
  cases x
  case table | held | groups | queues | noteLow | derived | dirty => exact absurd (by simp) hx
  all_goals simp [Part.Same]

/-! ## The presses while the set has room -/

/-- No key of `v` is bound to SELECT. -/
def State.Plain (s : State) (v : List KeyPos) : Prop :=
  ∀ q ∈ v, s.table[q].cls.group? = none

/-- From `s` to `t` the keys of `v` have been pressed, each given a record. -/
structure KeysMade (s t : State) (v : List KeyPos) : Prop where
  table : ∀ q : KeyPos, t.table[q] = if q ∈ v then s.table[q].pressed else s.table[q]
  held : ∃ made, t.held = s.held ++ made ∧ made.map HeldRecord.pos = v ∧
    (∀ r ∈ made, r.resync = true ∧ r.pressedAt = s.deskTime ∧ r.repeatCount = 0) ∧
    (s.Plain v → made = v.map s.foundRecord)
  offered : ∃ pressed : Port → List Report, AllOffered s t pressed ∧ (∀ h, ∀ r ∈ pressed h, r.resync = true) ∧
    (s.Plain v → pressed = fun h => v.flatMap (s.foundReport h))
  groups : s.Plain v → t.groups = s.groups
  changes : OnlyChanges s t [.table, .held, .groups, .queues, .noteLow, .derived, .dirty]

theorem KeysMade.nil (s : State) : KeysMade s s [] where
  table q := by simp
  held := ⟨[], by simp, rfl, by simp, fun _ => rfl⟩
  offered := ⟨_, .nil s, by simp, fun _ => rfl⟩
  groups _ := rfl
  changes := .refl s _

theorem State.foundRecord_congr (binding : t.table[q] = s.table[q]) (time : t.deskTime = s.deskTime)
    (profiles : t.profiles = s.profiles) : t.foundRecord q = s.foundRecord q := by
  simp only [State.foundRecord, binding, time, profiles]

theorem State.foundReport_congr (binding : t.table[q] = s.table[q]) (h : Port) : t.foundReport h q = s.foundReport h q := by
  simp only [State.foundReport, State.noticeOf, binding]

theorem State.blockedReport_congr (binding : t.table[q] = s.table[q]) (h : Port) :
    t.blockedReport h q = s.blockedReport h q := by
  simp only [State.blockedReport, State.noticeOf, binding]

theorem KeysMade.step {v : List KeyPos} (w : KeysMade s t v) (new : q ∉ v) (fresh : ∀ r ∈ s.held, r.pos ≠ q)
    (room : s.held.length + v.length < 16) : KeysMade s (t.pressKey true q) (v ++ [q]) := by
  obtain ⟨made, held, places, form, plainHeld⟩ := w.held
  obtain ⟨pressed, offered, marked, plainOffers⟩ := w.offered
  have binding : t.table[q] = s.table[q] := by rw [w.table q, if_neg new]
  have time : t.deskTime = s.deskTime := w.changes .deskTime (by simp)
  have ports : t.ports = s.ports := w.changes .ports (by simp)
  have profiles : t.profiles = s.profiles := w.changes .profiles (by simp)
  have absent : ∀ r ∈ t.held, r.pos ≠ q := fun r hr e => by
    rw [held] at hr
    obtain hr | hr := List.mem_append.mp hr
    · exact fresh r hr e
    · exact new (by rw [← places, ← e]; exact List.mem_map_of_mem hr)
  have length : t.held.length < 16 := by
    have := congrArg List.length places
    rw [List.length_map] at this
    rw [held, List.length_append]
    omega
  obtain ⟨r, reports, one, plainOne⟩ := State.pressKey_made absent length
  rw [binding, State.foundRecord_congr binding time profiles] at plainOne
  obtain ⟨pos, resync, at', count⟩ := one.record
  have plain : s.Plain (v ++ [q]) → s.Plain v ∧ s.table[q].cls.group? = none := fun h =>
    ⟨fun j hj => h j (List.mem_append_left _ hj), h q (by simp)⟩
  refine ⟨fun j => ?_, ⟨made ++ [r], ?_, ?_, fun x hx => ?_, fun h => ?_⟩, ⟨_, offered.trans one.offered time fun h => by rw [ports],
    fun h x hx => ?_, fun h => ?_⟩, fun h => ?_, w.changes.trans (t.pressKey_changes true q) _ (fun _ h => h) fun _ h => h⟩
  · rw [one.table]
    by_cases e : q = j
    · subst e
      rw [upd_self, if_pos (by simp), binding]
    · have away : j ∈ v ++ [q] ↔ j ∈ v := by simp [Ne.symm e]
      rw [upd_ne _ _ _ _ e, w.table j]
      simp only [away]
  · rw [one.held, held, List.append_assoc]
  · rw [List.map_append, places, List.map_singleton, pos]
  · obtain hx | hx := List.mem_append.mp hx
    · exact form x hx
    · rw [List.mem_singleton.mp hx]
      exact ⟨resync, at'.trans time, count⟩
  · obtain ⟨before, here⟩ := plain h
    rw [plainHeld before, (plainOne here).2.1, List.map_append, List.map_singleton]
  · obtain hx | hx := List.mem_append.mp hx
    · exact marked h x hx
    · exact one.marked h x hx
  · obtain ⟨before, here⟩ := plain h
    funext k
    rw [plainOffers before, (plainOne here).2.2, List.flatMap_append, List.flatMap_singleton]
    exact congrArg _ (State.foundReport_congr binding k)
  · obtain ⟨before, here⟩ := plain h
    exact (plainOne here).1.trans (w.groups before)

theorem press_keys_spec {qs : List KeyPos} (nodup : qs.Nodup) (fresh : ∀ q ∈ qs, ∀ r ∈ s.held, r.pos ≠ q)
    (room : s.held.length + qs.length ≤ 16) : KeysMade s (qs.foldl (fun t q => t.pressKey true q) s) qs := by
  have walk : ∀ (rest v : List KeyPos) (t : State), v ++ rest = qs → KeysMade s t v →
      KeysMade s (rest.foldl (fun t q => t.pressKey true q) t) qs := by
    intro rest
    induction rest with
    | nil =>
      intro v t e w
      rwa [← e, List.append_nil]
    | cons q rest ih =>
      intro v t e w
      have new : q ∉ v := fun h => by
        rw [← e] at nodup
        exact List.disjoint_of_nodup_append nodup h List.mem_cons_self
      have length : v.length + (rest.length + 1) = qs.length := by rw [← e, List.length_append, List.length_cons]
      exact ih (v ++ [q]) _ (by rw [List.append_assoc]; exact e)
        (w.step new (fresh q (by rw [← e]; simp)) (by omega))
  exact walk qs [] s rfl (.nil s)

/-! ## The presses that find the set full -/

/-- From `s` to `t` the keys of `v` have been pressed, and each blocked. -/
structure KeysBlocked (s t : State) (v : List KeyPos) : Prop where
  offered : AllOffered s t (fun h => v.flatMap (s.blockedReport h))
  changes : OnlyChanges s t [.queues, .noteLow]

theorem State.pressKey_blocked (fresh : ∀ r ∈ s.held, r.pos ≠ q) (full : 16 ≤ s.held.length) :
    AllOffered s (s.pressKey true q) (fun h => s.blockedReport h q) ∧
    OnlyChanges s (s.pressKey true q) [.queues, .noteLow] := by
  cases owner : s.table[q].owner with
  | none =>
    have silent : (fun h => s.blockedReport h q) = fun _ => [] := funext fun h => by
      rw [State.blockedReport, owner, if_neg (Option.some_ne_none h).symm]
    rw [silent, State.pressKey_full_unowned fresh full owner]
    exact ⟨.nil s, .refl s _⟩
  | some k =>
    have one : (fun h => s.blockedReport h q) = fun h => if h = k then [s.keyReport .blocked q 0 true false] else [] :=
      funext fun h => by
        simp only [State.blockedReport, owner, Option.some.injEq, eq_comm]
        rfl
    rw [one, State.pressKey_full_owned fresh full owner]
    exact ⟨(s.offer_offered k _).all, s.offer_onlyChanges k _⟩

theorem block_keys_spec {qs : List KeyPos} (fresh : ∀ q ∈ qs, ∀ r ∈ s.held, r.pos ≠ q) (full : 16 ≤ s.held.length) :
    KeysBlocked s (qs.foldl (fun t q => t.pressKey true q) s) qs := by
  induction qs using List.reverseRecOn with
  | nil => exact ⟨.nil s, .refl s _⟩
  | append_singleton v q ih =>
    obtain ⟨offered, changes⟩ := ih fun j hj => fresh j (List.mem_append_left _ hj)
    rw [List.foldl_append, List.foldl_cons, List.foldl_nil]
    generalize v.foldl (fun t q => t.pressKey true q) s = t at *
    have held : t.held = s.held := changes .held (by simp)
    have ports : t.ports = s.ports := changes .ports (by simp)
    have table : t.table = s.table := changes .table (by simp)
    obtain ⟨one, only⟩ := State.pressKey_blocked (s := t) (q := q) (by rw [held]; exact fresh q (by simp)) (by rwa [held])
    refine ⟨?_, changes.trans only _ (fun _ h => h) fun _ h => h⟩
    have all := offered.trans one (changes .deskTime (by simp)) fun h => by rw [ports]
    have same : (fun h => (v ++ [q]).flatMap (s.blockedReport h)) =
        fun h => v.flatMap (s.blockedReport h) ++ t.blockedReport h q := funext fun h => by
      rw [List.flatMap_append, List.flatMap_singleton, State.blockedReport_congr (by rw [table])]
    rw [same]
    exact all

end

end Sys2Proof.Machine
end

section
/-! PROOF. Sessions begin, and a good IMAGE reply reconciles the held keys (R76, R77, R157, R159). -/

namespace Sys2Proof.Machine

section
variable (s : State) (n : LinkId) (c : Nat) (keys : BitVec 128)

/-! ## The records whose keys are up -/

theorem goneFrom_iff {n : LinkId} {keys : BitVec 128} {r : HeldRecord} :
    goneFrom n keys r = true ↔ panelOf r.pos = n ∧ keys.getLsbD (keyOf r.pos) = false := by
  simp [goneFrom]

theorem State.heldUp_eq : (s.heldOn n).filter (fun q => !keys.getLsbD (keyOf q)) =
    (s.held.filter (goneFrom n keys)).map HeldRecord.pos := by
  rw [State.heldOn, List.filter_map, List.filter_map, List.filter_filter]
  refine congrArg _ (List.filter_congr fun r _ => ?_)
  rw [goneFrom, Bool.and_comm]
  rfl

theorem State.reconcileReleases_held : (s.reconcileReleases n keys).held = s.held.filter (fun r => !goneFrom n keys r) := by
  rw [State.reconcileReleases, foldl_releaseKey_held, State.heldUp_eq]
  refine List.filter_congr fun r hr => ?_
  rw [Bool.eq_iff_iff, decide_eq_true_eq, Bool.not_eq_true', ← Bool.not_eq_true]
  refine not_congr ⟨fun h => ?_, fun h => List.mem_map_of_mem (List.mem_filter.mpr ⟨hr, h⟩)⟩
  obtain ⟨x, hx, same⟩ := List.mem_map.mp h
  obtain ⟨-, up⟩ := List.mem_filter.mp hx
  rw [goneFrom_iff] at up ⊢
  rwa [← same]

theorem State.reconcileReleases_changes :
    OnlyChanges s (s.reconcileReleases n keys) [.held, .queues, .noteLow, .derived, .dirty] :=
  .foldl (fun t q => t.releaseKey_changes true false q) _ s

theorem State.reconcileReleases_offered (one : s.HeldLaw) : AllOffered s (s.reconcileReleases n keys)
    (fun h => (s.held.filter (goneFrom n keys)).flatMap (s.releaseReport h true false)) := by
  have nodup : ((s.heldOn n).filter (fun q => !keys.getLsbD (keyOf q))).Nodup := (one.distinct.filter _).filter _
  have walk := release_keys_spec (s := s) true false nodup
  have reports : (fun h => (s.held.filter (goneFrom n keys)).flatMap (s.releaseReport h true false)) =
      fun h => ((s.heldOn n).filter (fun q => !keys.getLsbD (keyOf q))).flatMap (s.closingReports h true false) :=
    funext fun h => by rw [State.heldUp_eq, State.closingReports_filter one]
  rw [reports]
  exact walk.offered

/-! ## The keys found down -/

/-- The keys below the key count that the image shows down, from key 0 upward. -/
def imageDown (n : LinkId) (c : Nat) (keys : BitVec 128) : List KeyPos :=
  ((List.finRange 128).filter (fun k => decide (k.1 < c) && keys.getLsbD k.1)).map (posOf n)

theorem posOf_injective (n : LinkId) : Function.Injective (posOf n) := fun a b h => by
  have h := congrArg Fin.val h
  simp only [posOf] at h
  exact Fin.ext (by omega)

theorem imageDown_nodup : (imageDown n c keys).Nodup :=
  ((List.nodup_finRange 128).filter _).map (posOf_injective n)

/-- A record of a key found down stays. -/
theorem not_goneFrom_of_down {n : LinkId} {c : Nat} {keys : BitVec 128} {r : HeldRecord}
    (down : r.pos ∈ imageDown n c keys) : goneFrom n keys r = false := by
  obtain ⟨k, hk, e⟩ := List.mem_map.mp down
  have key : keyOf r.pos = k.1 := by
    rw [← e]
    simp only [keyOf, posOf]
    omega
  have pressed := (Bool.and_eq_true_iff.mp (List.mem_filter.mp hk).2).2
  rw [goneFrom, key, pressed, Bool.not_true, Bool.and_false]

/-- The positions of `l` without a record. -/
def State.unheld (s : State) (l : List KeyPos) : List KeyPos :=
  l.filter (fun q => s.held.all (fun r => decide (r.pos ≠ q)))

theorem State.mem_unheld {s : State} {l : List KeyPos} {q : KeyPos} :
    q ∈ s.unheld l ↔ q ∈ l ∧ ∀ r ∈ s.held, r.pos ≠ q := by
  simp [State.unheld]

/-- Presses of keys with a record do nothing. -/
theorem foldl_pressKey_unheld (l : List KeyPos) (s : State) :
    l.foldl (fun t q => t.pressKey true q) s = (s.unheld l).foldl (fun t q => t.pressKey true q) s := by
  have walk : ∀ (l : List KeyPos) (t : State), (∀ r ∈ s.held, r ∈ t.held) →
      l.foldl (fun t q => t.pressKey true q) t = (s.unheld l).foldl (fun t q => t.pressKey true q) t := by
    intro l
    induction l with
    | nil => exact fun _ _ => rfl
    | cons q l ih =>
      intro t more
      by_cases there : ∃ r ∈ s.held, r.pos = q
      · obtain ⟨r, hr, e⟩ := there
        have skipped : s.unheld (q :: l) = s.unheld l := by
          refine List.filter_cons_of_neg ?_
          simpa using ⟨r, hr, e⟩
        rw [skipped, List.foldl_cons, State.pressKey_held ⟨r, more r hr, e⟩]
        exact ih t more
      · have taken : s.unheld (q :: l) = q :: s.unheld l := by
          refine List.filter_cons_of_pos ?_
          simpa using there
        rw [taken, List.foldl_cons, List.foldl_cons]
        refine ih _ fun r hr => ?_
        obtain same | ⟨-, -, x, held, -⟩ := t.pressKey_held_cases true q
        · rw [same]
          exact more r hr
        · rw [held]
          exact List.mem_append_left _ (more r hr)
  exact walk l s fun _ h => h

theorem State.foundDown_eq : s.foundDown n c keys = (s.reconcileReleases n keys).unheld (imageDown n c keys) := by
  refine List.filter_congr fun q down => ?_
  rw [Bool.eq_iff_iff, List.all_eq_true, List.all_eq_true, State.reconcileReleases_held]
  simp only [decide_eq_true_eq]
  refine ⟨fun h r hr => h r (List.mem_filter.mp hr).1, fun h r hr e => ?_⟩
  subst e
  exact h r (List.mem_filter.mpr ⟨hr, by rw [not_goneFrom_of_down down]; rfl⟩) rfl

/-! ## Reconciliation -/

/-- The notices of the presses of a reconciliation that are not SELECT. -/
def State.foundReports (s : State) (found : List KeyPos) (room : Nat) (h : Port) : List Report :=
  (found.take room).flatMap (s.foundReport h) ++ (found.drop room).flatMap (s.blockedReport h)

/-- From `s` to `t` the keys of `found` have been pressed, `room` of them given a record; the notices `gone` stand before
those of the presses and `behind` behind them. -/
structure Reconciled (s t : State) (kept : List HeldRecord) (found : List KeyPos) (room : Nat)
    (gone : Port → List Report) (behind : List Report) : Prop where
  table : ∀ q : KeyPos, t.table[q] = if q ∈ found.take room then s.table[q].pressed else s.table[q]
  held : ∃ made, t.held = kept ++ made ∧ made.map HeldRecord.pos = found.take room ∧
    (∀ r ∈ made, r.resync = true ∧ r.pressedAt = s.deskTime ∧ r.repeatCount = 0) ∧
    (s.Plain found → made = (found.take room).map s.foundRecord)
  groups : s.Plain found → t.groups = s.groups
  offered : s.HeldLaw → ∃ pressed : Port → List Report, (∀ h, ∀ r ∈ pressed h, r.resync = true) ∧
    AllOffered s t (fun h => gone h ++ pressed h ++ behind) ∧
    (s.Plain found → pressed = s.foundReports found room)

theorem blockedReport_marked (h : Port) (q : KeyPos) : ∀ r ∈ s.blockedReport h q, r.resync = true := by
  intro r hr
  rw [State.blockedReport] at hr
  split at hr
  · rw [List.mem_singleton.mp hr]
    rfl
  · cases hr

/-- The presses split where the set is full. -/
theorem press_keys_split {u : State} {found : List KeyPos} (nodup : found.Nodup)
    (fresh : ∀ q ∈ found, ∀ r ∈ u.held, r.pos ≠ q) :
    ∃ m, KeysMade u m (found.take (16 - u.held.length)) ∧
      KeysBlocked m (found.foldl (fun t q => t.pressKey true q) u) (found.drop (16 - u.held.length)) := by
  generalize room : 16 - u.held.length = k
  by_cases beyond : 16 < u.held.length
  · obtain rfl : k = 0 := by omega
    exact ⟨u, .nil u, block_keys_spec fresh (by omega)⟩
  have length : (found.take k).length ≤ k := List.length_take_le k found
  have made := press_keys_spec (s := u) (nodup.sublist (List.take_sublist k found))
    (fun q hq => fresh q (List.mem_of_mem_take hq)) (by omega)
  refine ⟨_, made, ?_⟩
  have split : found.foldl (fun t q => t.pressKey true q) u = (found.drop k).foldl (fun t q => t.pressKey true q)
      ((found.take k).foldl (fun t q => t.pressKey true q) u) := by rw [← List.foldl_append, List.take_append_drop]
  rw [split]
  generalize (found.take k).foldl (fun t q => t.pressKey true q) u = m at made
  by_cases fits : found.length ≤ k
  · rw [List.drop_of_length_le fits]
    exact ⟨.nil m, .refl m _⟩
  obtain ⟨records, held, places, -⟩ := made.held
  have count : records.length = k := by
    rw [← List.length_map (f := HeldRecord.pos), places, List.length_take]
    omega
  refine block_keys_spec (fun q hq r hr e => ?_) (by rw [held, List.length_append]; omega)
  rw [held] at hr
  obtain hr | hr := List.mem_append.mp hr
  · exact fresh q (List.mem_of_mem_drop hq) r hr e
  · have taken : q ∈ found.take k := by rw [← places, ← e]; exact List.mem_map_of_mem hr
    rw [← List.take_append_drop k found] at nodup
    exact List.disjoint_of_nodup_append nodup taken hq

theorem reconcile_spec : Reconciled s (s.reconcile n c keys) (s.held.filter (fun r => !goneFrom n keys r))
    (s.foundDown n c keys) (16 - (s.held.filter (fun r => !goneFrom n keys r)).length)
    (fun h => (s.held.filter (goneFrom n keys)).flatMap (s.releaseReport h true false)) [] := by
  have heldU := s.reconcileReleases_held n keys
  have changesU := s.reconcileReleases_changes n keys
  have offeredU := s.reconcileReleases_offered n keys
  have foundU := s.foundDown_eq n c keys
  have walkU : s.reconcile n c keys =
      ((s.reconcileReleases n keys).unheld (imageDown n c keys)).foldl (fun t q => t.pressKey true q) (s.reconcileReleases n keys) :=
    foldl_pressKey_unheld _ _
  generalize s.reconcileReleases n keys = u at heldU changesU offeredU foundU walkU
  rw [← foundU] at walkU
  have nodup : (s.foundDown n c keys).Nodup := (imageDown_nodup n c keys).filter _
  have fresh : ∀ q ∈ s.foundDown n c keys, ∀ r ∈ u.held, r.pos ≠ q := fun q hq => by
    rw [foundU] at hq
    exact (State.mem_unheld.mp hq).2
  clear foundU
  generalize s.foundDown n c keys = found at walkU nodup fresh
  rw [← heldU, walkU]
  obtain ⟨m, made, blocked⟩ := press_keys_split nodup fresh
  generalize found.foldl (fun t q => t.pressKey true q) u = t at blocked
  generalize 16 - u.held.length = k at made blocked
  have tableU : u.table = s.table := changesU .table (by simp)
  have timeU : u.deskTime = s.deskTime := changesU .deskTime (by simp)
  have portsU : u.ports = s.ports := changesU .ports (by simp)
  have profilesU : u.profiles = s.profiles := changesU .profiles (by simp)
  have plain : s.Plain found → u.Plain (found.take k) := fun h q hq => by
    rw [tableU]
    exact h q (List.mem_of_mem_take hq)
  have records : u.foundRecord = s.foundRecord := funext fun q => State.foundRecord_congr (by rw [tableU]) timeU profilesU
  have reports : ∀ h, u.foundReport h = s.foundReport h := fun h => funext fun q => State.foundReport_congr (by rw [tableU]) h
  have away : ∀ q ∈ found.drop k, m.table[q] = s.table[q] := fun q hq => by
    rw [made.table q, if_neg fun taken => ?_, tableU]
    rw [← List.take_append_drop k found] at nodup
    exact List.disjoint_of_nodup_append nodup taken hq
  have blocks : ∀ h, (found.drop k).flatMap (m.blockedReport h) = (found.drop k).flatMap (s.blockedReport h) := fun h =>
    List.flatMap_congr fun q hq => State.blockedReport_congr (away q hq) h
  refine ⟨fun q => ?table, ?held, fun h => ?groups, fun one => ?offered⟩
  case table =>
    rw [show t.table = m.table from blocked.changes .table (by simp), made.table q, tableU]
  case held =>
    obtain ⟨rs, held, places, form, plainly⟩ := made.held
    rw [timeU] at form
    exact ⟨rs, Eq.trans (blocked.changes .held (by simp)) held, places, form, fun h => by rw [plainly (plain h), records]⟩
  case groups =>
    exact (Eq.trans (blocked.changes .groups (by simp)) (made.groups (plain h))).trans (changesU .groups (by simp))
  case offered =>
    obtain ⟨pressed, offered, marked, plainly⟩ := made.offered
    have first := (offeredU one).trans offered timeU fun h => by rw [portsU]
    have timeM : m.deskTime = s.deskTime := Eq.trans (made.changes .deskTime (by simp)) timeU
    have portsM : m.ports = s.ports := Eq.trans (made.changes .ports (by simp)) portsU
    have all := first.trans blocked.offered timeM fun h => by rw [portsM]
    refine ⟨fun h => pressed h ++ (found.drop k).flatMap (s.blockedReport h), fun h r hr => ?_, ?_, fun h => ?_⟩
    · obtain hr | hr := List.mem_append.mp hr
      · exact marked h r hr
      · obtain ⟨q, -, hr⟩ := List.mem_flatMap.mp hr
        exact blockedReport_marked s h q r hr
    · simpa only [blocks, List.append_assoc, List.append_nil] using all
    · funext k'
      rw [plainly (plain h)]
      simp only [reports]
      rfl

theorem reconcile_changes :
    OnlyChanges s (s.reconcile n c keys) [.table, .held, .groups, .queues, .noteLow, .derived, .dirty] := by
  intro x hx
  cases x
  case table | held | groups | queues | noteLow | derived | dirty => exact absurd (by simp) hx
  all_goals simp [Part.Same]

/-- The lamps follow through a reconciliation. -/
theorem reconcile_derived (lit : ∀ q : KeyPos, s.derived[q] = s.lampFor q) (q : KeyPos) :
    (s.reconcile n c keys).derived[q] = (s.reconcile n c keys).lampFor q := by
  have walk : ∀ (effect : State → KeyPos → State), (∀ t q, LampsFollow t (effect t q)) → ∀ (l : List KeyPos) (t : State),
      (∀ q : KeyPos, t.derived[q] = t.lampFor q) → ∀ q : KeyPos, (l.foldl effect t).derived[q] = (l.foldl effect t).lampFor q := by
    intro effect follows l
    induction l with
    | nil => exact fun t lit => lit
    | cons x l ih => exact fun t lit => ih _ ((follows t x).derived lit)
  exact walk _ (fun t q => t.pressKey_lampsFollow true q) _ _ (walk _ (fun t q => t.releaseKey_lampsFollow true false q) _ s lit) q

/-! ## The state after a good IMAGE reply -/

/-- The other blocks as a synchronisation ends: reconciliation, the panel notice of the cause, the sent states UNKNOWN. -/
def State.synchronised (cause : SyncCause) (i : Identity) : State :=
  ((s.reconcile n i.keyCount keys).syncNotice n cause i).forgetSent n

/-- The panel notice that ends a synchronisation. -/
def syncReport (n : LinkId) (cause : SyncCause) (i : Identity) : Report :=
  if cause = .new then panelReport .panelUp n (256 * i.panelType.toNat + i.keyCount) else panelReport .panelResync n 0

theorem State.syncNotice_offered (cause : SyncCause) (i : Identity) :
    AllOffered s (s.syncNotice n cause i) (fun _ => [syncReport n cause i]) := by
  cases cause with
  | new => exact s.panelNotice_offered n .panelUp _
  | lost | reset => exact s.panelNotice_offered n .panelResync 0

theorem State.syncNotice_changes (cause : SyncCause) (i : Identity) :
    OnlyChanges s (s.syncNotice n cause i) [.queues, .noteLow] := by
  intro x hx
  cases x
  case queues | noteLow => exact absurd (by simp) hx
  all_goals simp [Part.Same]

theorem State.forgetSent_changes : OnlyChanges s (s.forgetSent n) [.sent, .dirty] := by
  intro x hx
  cases x
  case sent | dirty => exact absurd (by simp) hx
  all_goals simp [Part.Same]

theorem panelBlock_panel (n : LinkId) (b : Fin 16) : (panelBlock n b).1 / 16 = n.1 := by
  simp only [panelBlock]
  omega

/-- What a synchronisation that ends leaves (R76, R77, R159). -/
theorem State.synchronised_spec (cause : SyncCause) (i : Identity) :
    Reconciled s (s.synchronised n keys cause i) (s.held.filter (fun r => !goneFrom n keys r)) (s.foundDown n i.keyCount keys)
      (16 - (s.held.filter (fun r => !goneFrom n keys r)).length)
      (fun h => (s.held.filter (goneFrom n keys)).flatMap (s.releaseReport h true false)) [syncReport n cause i] := by
  obtain ⟨table, held, groups, offered⟩ := reconcile_spec s n i.keyCount keys
  have time : (s.reconcile n i.keyCount keys).deskTime = s.deskTime := by simp
  have ports : (s.reconcile n i.keyCount keys).ports = s.ports := by simp
  have notices := (s.reconcile n i.keyCount keys).syncNotice_offered n cause i
  have kept := ((s.reconcile n i.keyCount keys).syncNotice_changes n cause i).trans
    (State.forgetSent_changes ((s.reconcile n i.keyCount keys).syncNotice n cause i) n) [.queues, .noteLow, .sent, .dirty]
    (by simp) (by simp)
  have sent := State.forgetSent_changes ((s.reconcile n i.keyCount keys).syncNotice n cause i) n
  rw [State.synchronised]
  generalize ((s.reconcile n i.keyCount keys).syncNotice n cause i).forgetSent n = u at kept sent
  refine ⟨fun q => ?_, ?_, fun plain => Eq.trans (kept .groups (by simp)) (groups plain), fun one => ?_⟩
  · rw [show u.table = _ from kept .table (by simp)]
    exact table q
  · rw [show u.held = _ from kept .held (by simp)]
    exact held
  · obtain ⟨pressed, marked, before, plainly⟩ := offered one
    refine ⟨pressed, marked, ?_, plainly⟩
    have all := (before.trans notices time fun h => by rw [ports]).congr (sent .queues (by simp)) (sent .noteLow (by simp))
    simpa only [List.append_nil] using all

theorem State.synchronised_changes (cause : SyncCause) (i : Identity) : OnlyChanges s (s.synchronised n keys cause i)
    [.table, .held, .groups, .queues, .noteLow, .sent, .derived, .dirty] :=
  ((reconcile_changes s n i.keyCount keys).trans ((s.reconcile n i.keyCount keys).syncNotice_changes n cause i)
    [.table, .held, .groups, .queues, .noteLow, .derived, .dirty] (by simp) (by simp)).trans
    (State.forgetSent_changes _ n) _ (by simp) (by simp)

theorem State.synchronised_sent (cause : SyncCause) (i : Identity) (q : KeyPos) :
    (s.synchronised n keys cause i).sent[q] = if panelOf q = n then none else s.sent[q] := by
  rw [State.synchronised, State.forgetSent_sent]
  simp

theorem State.synchronised_derived (cause : SyncCause) (i : Identity)
    (lit : ∀ q : KeyPos, s.derived[q] = s.lampFor q) (q : KeyPos) :
    (s.synchronised n keys cause i).derived[q] = (s.synchronised n keys cause i).lampFor q := by
  have drawn := reconcile_derived s n i.keyCount keys lit q
  have derived : (s.synchronised n keys cause i).derived = (s.reconcile n i.keyCount keys).derived := by
    simp [State.synchronised]
  rw [derived, drawn]
  exact (State.lampFor_congr q (by simp [State.synchronised]) (by simp [State.synchronised])
    (by simp [State.synchronised])).symm

/-- The engine and the other blocks after a good IMAGE reply in SYNCING (R159). -/
theorem State.takeImage_eq {l : LinkEngine} {cause : SyncCause} {i : Identity} {last : OrderKind}
    (session : l.session = .syncing cause i last) (failures : l.failures = 0) :
    (s.setLink n l).takeImage n keys = (s.synchronised n keys cause i).setLink n
      { l with
        session := .up i .image none, bitL := false, lck := .clocking
        inFlight := some ⟨.lamp 0 ((s.synchronised n keys cause i).blockStates (panelBlock n 0)), 1⟩ } := by
  have here : (s.setLink n l).links[n].session = .syncing cause i last := by rw [State.setLink_link, session]
  have taken : (s.setLink n l).takeImage n keys = ((s.synchronised n keys cause i).setLink n
      { l with bitL := false, session := .up i .image none }).nextOrder n := by
    simp only [State.takeImage, here]
    rw [State.setLink_link, State.setLink_setLink, State.setLink_reconcile, State.setLink_syncNotice, State.setSession,
      State.setLink_link, State.setLink_setLink, State.setLink_forgetSent, State.synchronised]
  have dirty : (s.synchronised n keys cause i).dirty[panelBlock n 0] = true := by
    rw [State.synchronised, State.forgetSent_dirty, if_pos (panelBlock_panel n 0)]
  rw [taken, State.nextOrder_up rfl, State.chooseUp_dirty (by decide) dirty fun b' lower => absurd lower (Fin.not_lt_zero b')]
  simp only [failures]

end

/-- Settles O52: the IDENT, then the IMAGE reply through the reconciliation. -/
theorem sessionsBeginAndSynchronise : Obligations.SessionsBeginAndSynchronise := by
  refine fun s n => ⟨fun d k ty c hs hf low high => ?ident, fun cause i last k keys hs hf => ?image⟩
  case ident =>
    have fit : fits .identify (.ident ty c) = true := by simp [fits, low, high]
    have taken : exec (.ident n ty c) s = .next
        ((s.setLink n { s.links[n] with inFlight := none, lck := .high, failures := 0 }).takeIdent n ty c) :=
      congrArg _ (State.endExchange_good hf fit)
    have probing : (s.setLink n { s.links[n] with inFlight := none, lck := .high, failures := 0 }).links[n].session =
        .probing d := by rw [State.setLink_link, hs]
    simp only [State.takeIdent, probing] at taken
    rw [State.setSession, State.setLink_link, State.setLink_setLink, State.setLink_beginOrder] at taken
    exact ⟨_, taken, rfl, onlyChanges_setLink _ _ _⟩
  case image =>
    intro kept found room gone notice
    have taken : exec (.imageReply n keys) s = .next ((s.setLink n s.links[n].answered).takeImage n keys) :=
      congrArg _ (State.endExchange_good hf rfl)
    rw [State.takeImage_eq s n keys (l := s.links[n].answered) hs rfl] at taken
    obtain ⟨table, held, groups, offered⟩ := s.synchronised_spec n keys cause i
    have changes := s.synchronised_changes n keys cause i
    have sent := s.synchronised_sent n keys cause i
    have lamps := s.synchronised_derived n keys cause i
    generalize s.synchronised n keys cause i = u at taken table held groups offered changes sent lamps
    have links : u.links = s.links := changes .links (by simp)
    refine ⟨_, taken, ⟨_, u.blockStates_get _, congrArg (upd · n _) links⟩, sent, lamps, table, held, fun one => ?_,
      changes.trans (onlyChanges_setLink _ _ _) _ (by simp) (by simp)⟩
    obtain ⟨pressed, marked, all, plainly⟩ := offered one
    refine ⟨⟨pressed, marked, all⟩, fun plain => ⟨groups plain, ?_⟩⟩
    have all : AllOffered s u _ := all
    rw [plainly plain] at all
    simp only [State.foundReports, ← List.append_assoc] at all
    exact all

end Sys2Proof.Machine
end

section
/-! PROOF. Frames: a whole frame is read as it was sent, and a single faulty bit is found (R138, R139). -/

namespace Sys2Proof.Machine

/-! ## Lists of bits -/

theorem modify_append_left {α : Type} (f : α → α) {i : Nat} {l : List α} (m : List α) (h : i < l.length) :
    (l ++ m).modify i f = l.modify i f ++ m := by
  induction l generalizing i with
  | nil => cases h
  | cons a l ih =>
    cases i with
    | zero => rfl
    | succ i => exact congrArg (a :: ·) (ih (Nat.lt_of_succ_lt_succ h))

theorem modify_append_right {α : Type} (f : α → α) {i : Nat} {l : List α} (m : List α) (h : l.length ≤ i) :
    (l ++ m).modify i f = l ++ m.modify (i - l.length) f := by
  induction l generalizing i with
  | nil => rfl
  | cons a l ih =>
    obtain ⟨i, rfl⟩ := Nat.exists_eq_add_of_lt (Nat.lt_of_lt_of_le (Nat.zero_lt_succ _) h)
    have h : l.length ≤ 0 + i := by simpa using h
    simpa using congrArg (a :: ·) (ih h)

theorem oddOnes_cons (b : Bool) (l : List Bool) : oddOnes (b :: l) = xor b (oddOnes l) := by
  have start : ∀ (l : List Bool) (x : Bool), l.foldl xor x = xor x (l.foldl xor false) := by
    intro l
    induction l with
    | nil => exact fun x => (Bool.xor_false x).symm
    | cons c l ih => exact fun x => by rw [List.foldl_cons, ih, List.foldl_cons, ih (xor false c), Bool.false_xor, Bool.xor_assoc]
  rw [oddOnes, List.foldl_cons, start, Bool.false_xor]
  rfl

theorem oddOnes_append_one (l : List Bool) (b : Bool) : oddOnes (l ++ [b]) = xor (oddOnes l) b := by
  simp [oddOnes]

/-- A single bit turned over turns the parity over. -/
theorem oddOnes_modify {l : List Bool} {i : Nat} (h : i < l.length) : oddOnes (l.modify i (fun b => !b)) = !oddOnes l := by
  induction l generalizing i with
  | nil => cases h
  | cons b l ih =>
    cases i with
    | zero => rw [List.modify_zero_cons, oddOnes_cons, oddOnes_cons, Bool.not_xor]
    | succ i => rw [List.modify_succ_cons, oddOnes_cons, oddOnes_cons, ih (Nat.lt_of_succ_lt_succ h), Bool.xor_not]

/-- The first bits received are those sent. -/
theorem map_bitAt (l rest : List Bool) : (List.range l.length).map (bitAt (l ++ rest)) = l := by
  apply List.ext_getElem
  · simp
  · intro i h _
    have h : i < l.length := by simpa using h
    simp [bitAt, List.getElem?_append_left h, h]

/-! ## One frame -/

section
variable (k : Bool) (d : Byte) (rest : List Bool)

/-- The bits of a frame that its parity bit covers, and the parity bit. -/
def covered (k : Bool) (d : Byte) : List Bool :=
  (k :: dataBits d) ++ [oddOnes (k :: dataBits d)]

theorem frame_eq : frame k d = false :: (covered k d ++ [true]) := by
  simp [frame, covered]

theorem covered_length : (covered k d).length = 10 := by
  simp [covered, dataBits]

theorem frame_length : (frame k d).length = 12 := by
  simp [frame_eq, covered_length]

/-- The number of 1s among the bits covered and the parity bit is even. -/
theorem covered_even : oddOnes (covered k d) = false := by
  rw [covered, oddOnes_append_one, Bool.xor_self]

/-- What makes of 11 bits a good frame. -/
theorem frameAt_eq {l : List Bool} (h : l.length = 10) (stop : Bool) :
    frameAt (l ++ stop :: rest) = if oddOnes l || !stop then none else some (bitAt l 0, dataAt l) := by
  have bits : (List.range 10).map (bitAt (l ++ stop :: rest)) = l := by rw [← h]; exact map_bitAt l _
  have last : bitAt (l ++ stop :: rest) 10 = stop := by simp [bitAt, ← h]
  have inside : ∀ i, i < 10 → bitAt (l ++ stop :: rest) i = bitAt l i := fun i hi => by
    rw [bitAt, bitAt, List.getElem?_append_left (h.symm ▸ hi)]
  have data : dataAt (l ++ stop :: rest) = dataAt l := by
    simp only [dataAt]
    refine List.foldr_ext _ _ _ fun i hi acc => ?_
    rw [inside (i + 1) (by have := List.mem_range.mp hi; omega)]
  rw [frameAt, bits, last, data, inside 0 (by omega)]

theorem dataAt_covered : dataAt (covered k d) = d := by
  have bits : ∀ i, i < 8 → bitAt (covered k d) (i + 1) = d.getLsbD i := fun i hi => by
    simp [covered, bitAt, dataBits, hi, List.getElem?_append]
  simp only [dataAt]
  rw [List.foldr_ext _ (fun i (acc : Byte) => (acc <<< 1) ||| (BitVec.ofBool (d.getLsbD i)).setWidth 8) _
    fun i hi acc => by rw [bits i (List.mem_range.mp hi)]]
  apply BitVec.eq_of_getLsbD_eq
  intro i hi
  have range : List.range 8 = [0, 1, 2, 3, 4, 5, 6, 7] := rfl
  rw [range]
  interval_cases i <;> simp

/-- A frame sent is read. -/
theorem frameAt_frame : frameAt ((frame k d).tail ++ rest) = some (k, d) := by
  have body : (frame k d).tail ++ rest = covered k d ++ true :: rest := by simp [frame_eq]
  rw [body, frameAt_eq rest (covered_length k d), covered_even, dataAt_covered]
  rfl

/-- A single fault behind the start bit is found (R138). -/
theorem frameAt_fault {i : Nat} (hi : i < 11) : frameAt ((frame k d).tail.modify i (fun b => !b) ++ rest) = none := by
  have body : (frame k d).tail = covered k d ++ [true] := by simp [frame_eq]
  have length := covered_length k d
  rw [body]
  by_cases parity : i < 10
  · rw [modify_append_left _ _ (by omega), List.append_assoc, List.singleton_append,
      frameAt_eq rest (by rw [List.length_modify, length]), oddOnes_modify (by omega), covered_even]
    rfl
  · obtain rfl : i = 10 := by omega
    rw [modify_append_right _ _ (by omega), length, List.append_assoc]
    show frameAt (covered k d ++ false :: rest) = none
    rw [frameAt_eq rest length]
    simp

/-- Behind the start bit of a frame stand its 11 other bits. -/
theorem frame_cons : frame k d ++ rest = false :: ((frame k d).tail ++ rest) := by
  simp [frame_eq]

theorem drop_frame_tail : ((frame k d).tail ++ rest).drop 11 = rest := by
  have length : (frame k d).tail.length = 11 := by rw [List.length_tail, frame_length]
  rw [← length]
  exact List.drop_left

/-- A start bit within the bit times allowed is found. -/
theorem startWithin_wait {n wait : Nat} (h : wait < n) (body : List Bool) :
    startWithin n (List.replicate wait true ++ false :: body) = some body := by
  induction wait generalizing n with
  | zero =>
    obtain ⟨n, rfl⟩ := Nat.exists_eq_succ_of_ne_zero (Nat.ne_of_gt h)
    rfl
  | succ wait ih =>
    obtain ⟨n, rfl⟩ := Nat.exists_eq_succ_of_ne_zero (Nat.ne_of_gt (Nat.lt_of_le_of_lt (Nat.zero_le _) h))
    exact ih (Nat.lt_of_succ_lt_succ h)

/-- A start bit later than that is not. -/
theorem startWithin_late {n wait : Nat} (h : n ≤ wait) (body : List Bool) :
    startWithin n (List.replicate wait true ++ body) = none := by
  induction wait generalizing n with
  | zero =>
    obtain rfl := Nat.le_zero.mp h
    rfl
  | succ wait ih =>
    cases n with
    | zero => rfl
    | succ n => exact ih (Nat.le_of_succ_le_succ h)

end

end Sys2Proof.Machine
end

section
/-! PROOF. Messages on a link: replies judged by the part, orders heard by a panel (R137 to R145, R193). -/

namespace Sys2Proof.Machine

/-! ## Replies read by the part -/

theorem readData_frame {n : Nat} {rx body : List Bool} {d : Byte} (start : startWithin 5 rx = some body)
    (good : frameAt body = some (false, d)) {ds : List Byte} {rest : List Bool}
    (more : readData n (body.drop 11) = .ok (ds, rest)) : readData (n + 1) rx = .ok (d :: ds, rest) := by
  have step : readData (n + 1) rx = (match startWithin 5 rx with
    | none => .error .frameFault
    | some body =>
      match frameAt body with
      | none => .error .frameFault
      | some (true, _) => .error .brokenMessage
      | some (false, d) =>
        match readData n (body.drop 11) with
        | .error v => .error v
        | .ok (ds, rest) => .ok (d :: ds, rest)) := rfl
  rw [step, start]
  dsimp only
  rw [good]
  dsimp only
  rw [more]

/-- Data frames back to back are read. -/
theorem readData_frames (ds : List Byte) (rest : List Bool) :
    readData ds.length (ds.flatMap (frame false) ++ rest) = .ok (ds, rest) := by
  induction ds with
  | nil => rfl
  | cons d ds ih =>
    rw [List.flatMap_cons, List.append_assoc, frame_cons]
    exact readData_frame (startWithin_wait (n := 5) (wait := 0) (by omega) _) (frameAt_frame _ _ _)
      (by rw [drop_frame_tail]; exact ih)

/-- A message of a code that the order expects, with its data frames and nothing more, is judged by what it says. -/
theorem judge_message {o : LinkOrder} {m : Message} {wait : Nat} (early : wait ≤ 24)
    (frames : replyFrames m.code = some m.data.length) (expected : expectedCode o m.code = true) :
    judge o (List.replicate wait true ++ m.bits) = judgeMessage o m.code m.data := by
  have data := readData_frames m.data []
  rw [List.append_nil] at data
  rw [Message.bits, frame_cons, judge, startWithin_wait (by omega)]
  simp only [frameAt_frame, drop_frame_tail, frames, expected, if_true, data]
  rfl

theorem imageOf_cons (d : Byte) (l : List Byte) : imageOf (d :: l) = (imageOf l <<< 8) ||| d.setWidth 128 :=
  rfl

/-- The image of the data frames from the `j`-th on holds the keys from 8j on. -/
theorem imageOf_bytes (keys : BitVec 128) (j n i : Nat) :
    (imageOf ((List.range' j n).map (imageByte keys))).getLsbD i =
      (decide (i < 8 * n) && decide (i < 128) && keys.getLsbD (8 * j + i)) := by
  induction n generalizing i j with
  | zero => simp [imageOf]
  | succ n ih =>
    rw [List.range'_succ, List.map_cons, imageOf_cons, BitVec.getLsbD_or, BitVec.getLsbD_shiftLeft, BitVec.getLsbD_setWidth,
      ih, imageByte, BitVec.getLsbD_extractLsb']
    by_cases low : i < 8
    · have inside : i < 8 * (n + 1) := by omega
      simp [low, inside]
    · have place : 8 * (j + 1) + (i - 8) = 8 * j + i := by omega
      have same : i - 8 < 8 * n ↔ i < 8 * (n + 1) := by omega
      by_cases wide : i < 128
      · have inside : i - 8 < 128 := by omega
        simp [low, wide, inside, place, same]
      · simp [low, wide]

theorem imageOf_image (keys : BitVec 128) : imageOf ((List.range 16).map (imageByte keys)) = keys := by
  apply BitVec.eq_of_getLsbD_eq
  intro i hi
  rw [List.range_eq_range', imageOf_bytes]
  simp [hi]

theorem edgeOf_byte (bitS press : Bool) (key : BitVec 7) :
    edgeOf bitS (byte (key.toNat + 128 * press.toNat)) = .edge bitS press key := by
  have small := key.isLt
  have whole : (byte (key.toNat + 128 * press.toNat)).toNat = key.toNat + 128 * press.toNat := by
    have := Bool.toNat_lt press
    simp only [byte, BitVec.toNat_ofNat]
    omega
  have number : (byte (key.toNat + 128 * press.toNat)).extractLsb' 0 7 = key := by
    apply BitVec.eq_of_toNat_eq
    rw [BitVec.extractLsb'_toNat, whole, Nat.shiftRight_zero]
    omega
  have pressed : (byte (key.toNat + 128 * press.toNat)).getLsbD 7 = press := by
    rw [BitVec.getLsbD, whole, Nat.testBit_eq_decide_div_mod_eq]
    cases press <;> simp <;> omega
  rw [edgeOf, number, pressed]

theorem replyFrames_message (r : Reply) : replyFrames r.message.code = some r.message.data.length := by
  cases r with
  | edge bitS press key => cases bitS <;> rfl
  | ident t c | image keys | nothing | lost | accept | again => rfl

theorem readReply_message (r : Reply) : readReply r.message.code r.message.data = some r := by
  cases r with
  | edge bitS press key =>
    cases bitS
    · exact congrArg some (edgeOf_byte false press key)
    · exact congrArg some (edgeOf_byte true press key)
  | image keys => exact congrArg (fun x => some (Reply.image x)) (imageOf_image keys)
  | ident t c | nothing | lost | accept | again => rfl

/-- An order expects the code of a reply that fits it, and the code of AGAIN. -/
theorem expectedCode_message {o : LinkOrder} {r : Reply} (h : fits o r = true ∨ r = .again) :
    expectedCode o r.message.code = true := by
  obtain h | rfl := h
  · obtain ⟨rfl, ty, c, rfl, -⟩ | ⟨rfl, keys, rfl⟩ | ⟨⟨a, rfl⟩, rfl | rfl | ⟨bitS, press, key, rfl⟩⟩ | ⟨⟨b, v, rfl⟩, rfl⟩ :=
      (fits_iff o r).mp h
    case inr.inr.inl.inr.inr => cases bitS <;> rfl
    all_goals rfl
  · rfl

/-- A reply that fits its order, or AGAIN, is read as the command of that reply. -/
theorem exchangeCommand_message (n : LinkId) {o : LinkOrder} {r : Reply} {wait : Nat} (early : wait ≤ 24)
    (h : fits o r = true ∨ r = .again) :
    exchangeCommand n o (List.replicate wait true ++ r.message.bits) = r.command n := by
  rw [exchangeCommand, judge_message early (replyFrames_message r) (expectedCode_message h), judgeMessage, readReply_message]
  by_cases again : r = .again
  · subst again
    rfl
  · have good : fits o r = true := h.resolve_right again
    simp only [again, if_false, good, if_true]

/-! ## Orders heard by a panel -/

section
variable {cut : Bool} {code : Byte} {rest : List Bool}

theorem unlessCut_whole {l : List Bool} {needed : Nat} (h : needed ≤ l.length) (x : Heard) : unlessCut cut l needed x = x := by
  rw [unlessCut, if_neg]
  rw [Bool.and_eq_true, decide_eq_true_eq]
  omega

theorem unlessCut_cut {l : List Bool} {needed : Nat} (h : l.length < needed) (x : Heard) :
    unlessCut true l needed x = .silence := by
  rw [unlessCut, if_pos]
  rw [Bool.true_and, decide_eq_true_eq]
  exact h

/-- What a panel makes of a data frame that is due, whose bits behind the start bit are next. -/
def dataHeard (cut : Bool) (code : Byte) (n : Nat) (data : List Byte) (body : List Bool) : Option (Bool × Byte) → Heard
  | some (false, d) => hearData cut code n (data ++ [d]) (body.drop 11)
  | some (true, _) => .fault
  | none => .fault

theorem hearData_start {cut : Bool} {code : Byte} {n : Nat} {data : List Byte} {rx body : List Bool}
    (start : startWithin 5 rx = some body) :
    hearData cut code (n + 1) data rx = unlessCut cut body 11 (dataHeard cut code n data body (frameAt body)) := by
  have step : hearData cut code (n + 1) data rx = (match startWithin 5 rx with
    | none => unlessCut cut rx 5 .fault
    | some body => unlessCut cut body 11 (dataHeard cut code n data body (frameAt body))) := rfl
  rw [step, start]

theorem hearData_late {cut : Bool} {code : Byte} {n : Nat} {data : List Byte} {rx : List Bool}
    (late : startWithin 5 rx = none) : hearData cut code (n + 1) data rx = unlessCut cut rx 5 .fault := by
  have step : hearData cut code (n + 1) data rx = (match startWithin 5 rx with
    | none => unlessCut cut rx 5 .fault
    | some body => unlessCut cut body 11 (dataHeard cut code n data body (frameAt body))) := rfl
  rw [step, late]

/-- What a panel makes of the first frame of an order, whose bits behind the start bit are next. -/
def codeHeard (cut : Bool) (body : List Bool) : Option (Bool × Byte) → Heard
  | some (true, code) =>
    match orderFrames code with
    | some n => hearData cut code n [] (body.drop 11)
    | none => .fault
  | some (false, _) => .fault
  | none => .fault

/-- The first 0, after any wait, is a start bit. -/
theorem hear_start (wait : Nat) (body : List Bool) (cut : Bool) : hear (List.replicate wait true ++ false :: body) cut =
    unlessCut cut body 11 (codeHeard cut body (frameAt body)) := by
  have skipped : (List.replicate wait true ++ false :: body).dropWhile id = false :: body := by
    rw [List.dropWhile_append_of_pos (p := id) fun b hb => List.eq_of_mem_replicate hb]
    rfl
  have step : ∀ rx : List Bool, hear rx cut = (match rx.dropWhile id with
    | [] => .silence
    | _ :: body => unlessCut cut body 11 (codeHeard cut body (frameAt body))) := fun _ => rfl
  rw [step, skipped]
theorem tail_length (k : Bool) (d : Byte) (rest : List Bool) : 11 ≤ ((frame k d).tail ++ rest).length := by
  rw [List.length_append, List.length_tail, frame_length]
  omega

/-- A control frame of a code known, after any wait. -/
theorem hear_code {n : Nat} (known : orderFrames code = some n) (wait : Nat) :
    hear (List.replicate wait true ++ (frame true code ++ rest)) cut = hearData cut code n [] rest := by
  rw [frame_cons, hear_start, unlessCut_whole (tail_length _ _ _), frameAt_frame]
  simp only [codeHeard, known, drop_frame_tail]

/-- A control frame of a code unknown. -/
theorem hear_unknown (unknown : orderFrames code = none) : hear (frame true code ++ rest) cut = .fault := by
  rw [frame_cons]
  refine (hear_start 0 _ cut).trans ?_
  rw [unlessCut_whole (tail_length _ _ _), frameAt_frame]
  simp only [codeHeard, unknown]

/-- A data frame that is due, behind a gap of at most 4 bit times. -/
theorem hearData_frame {gap : Nat} (short : gap ≤ 4) (n : Nat) (data : List Byte) (d : Byte) :
    hearData cut code (n + 1) data (List.replicate gap true ++ (frame false d ++ rest)) =
      hearData cut code n (data ++ [d]) rest := by
  rw [frame_cons, hearData_start (startWithin_wait (by omega) _), unlessCut_whole (tail_length _ _ _), frameAt_frame]
  simp only [dataHeard, drop_frame_tail]

theorem hearData_next (n : Nat) (data : List Byte) (d : Byte) :
    hearData cut code (n + 1) data (frame false d ++ rest) = hearData cut code n (data ++ [d]) rest :=
  hearData_frame (gap := 0) (by omega) n data d

/-- What a panel makes of an order whose data frames have all come. -/
def orderHeard (code : Byte) (data : List Byte) : Heard :=
  match readOrder code data with
  | some o => .order o
  | none => .fault

theorem hearData_done (data : List Byte) : hearData cut code 0 data rest = orderHeard code data :=
  rfl

/-- The data frames due, back to back. -/
theorem hearData_frames (ds data : List Byte) :
    hearData cut code ds.length data (ds.flatMap (frame false)) = orderHeard code (data ++ ds) := by
  induction ds generalizing data with
  | nil => rw [List.append_nil]; rfl
  | cons d ds ih => rw [List.flatMap_cons, List.length_cons, hearData_next, ih, List.append_assoc, List.singleton_append]

/-- An order with a code known, after any wait. -/
theorem hear_message {m : Message} (known : orderFrames m.code = some m.data.length) (wait : Nat) :
    hear (List.replicate wait true ++ m.bits) cut = orderHeard m.code m.data := by
  rw [Message.bits, hear_code known, hearData_frames, List.nil_append]

/-! ## Orders with a single fault, or cut short -/

theorem frame_modify_start {k : Bool} {d : Byte} {i : Nat} (behind : i ≠ 0) :
    (frame k d).modify i (fun b => !b) = false :: (frame k d).tail.modify (i - 1) (fun b => !b) := by
  obtain ⟨i, rfl⟩ := Nat.exists_eq_succ_of_ne_zero behind
  rw [frame_eq]
  rfl

/-- A data frame with a single fault behind its start bit. -/
theorem hearData_fault {ds : List Byte} {i : Nat} (inside : i < 12 * ds.length) (behind : i % 12 ≠ 0) (data : List Byte) :
    hearData false code ds.length data ((ds.flatMap (frame false)).modify i (fun b => !b)) = .fault := by
  induction ds generalizing i data with
  | nil => cases inside
  | cons d ds ih =>
    have length := frame_length false d
    rw [List.length_cons] at inside ⊢
    rw [List.flatMap_cons]
    by_cases here : i < 12
    · rw [modify_append_left _ _ (by omega), frame_modify_start (by omega), List.cons_append,
        hearData_start (body := (frame false d).tail.modify (i - 1) (fun b => !b) ++ ds.flatMap (frame false)) rfl,
        frameAt_fault false d _ (i := i - 1) (by omega)]
      rfl
    · rw [modify_append_right _ _ (by omega), length, hearData_next]
      exact ih (by omega) (by omega) _

/-- An order with a single fault behind the start bit of one of its frames (R138, R141). -/
theorem hear_fault {m : Message} (known : orderFrames m.code = some m.data.length) {i : Nat}
    (inside : i < 12 * (m.data.length + 1)) (behind : i % 12 ≠ 0) :
    hear (m.bits.modify i (fun b => !b)) false = .fault := by
  have length := frame_length true m.code
  rw [Message.bits]
  by_cases here : i < 12
  · rw [modify_append_left _ _ (by omega), frame_modify_start (by omega), List.cons_append]
    refine (hear_start 0 _ false).trans ?_
    rw [frameAt_fault true m.code _ (i := i - 1) (by omega)]
    rfl
  · rw [modify_append_right _ _ (by omega), length]
    exact (hear_code known 0).trans (hearData_fault (by omega) (by omega) [])

theorem frame_take {k : Bool} {d : Byte} {i : Nat} (some : i ≠ 0) :
    (frame k d).take i = false :: (frame k d).tail.take (i - 1) := by
  obtain ⟨i, rfl⟩ := Nat.exists_eq_succ_of_ne_zero some
  rw [frame_eq]
  rfl

/-- Data frames cut short. -/
theorem hearData_cut {ds : List Byte} {i : Nat} (inside : i < 12 * ds.length) (data : List Byte) :
    hearData true code ds.length data ((ds.flatMap (frame false)).take i) = .silence := by
  induction ds generalizing i data with
  | nil => cases inside
  | cons d ds ih =>
    have length := frame_length false d
    rw [List.length_cons] at inside ⊢
    rw [List.flatMap_cons, List.take_append, length]
    by_cases none : i = 0
    · subst none
      rfl
    by_cases here : i < 12
    · have nothing : i - 12 = 0 := by omega
      rw [nothing, List.take_zero, List.append_nil, frame_take none,
        hearData_start (body := (frame false d).tail.take (i - 1)) rfl]
      exact unlessCut_cut (by rw [List.length_take, List.length_tail]; omega) _
    · rw [List.take_of_length_le (by omega), hearData_next]
      exact ih (by omega) _

/-- An order cut short is no order (R141). -/
theorem hear_cut {m : Message} (known : orderFrames m.code = some m.data.length) {i : Nat}
    (inside : i < 12 * (m.data.length + 1)) : hear (m.bits.take i) true = .silence := by
  have length := frame_length true m.code
  rw [Message.bits, List.take_append, length]
  by_cases none : i = 0
  · subst none
    rfl
  by_cases here : i < 12
  · have nothing : i - 12 = 0 := by omega
    rw [nothing, List.take_zero, List.append_nil, frame_take none]
    refine (hear_start 0 _ true).trans ?_
    exact unlessCut_cut (by rw [List.length_take, List.length_tail]; omega) _
  · rw [List.take_of_length_le (by omega)]
    exact (hear_code known 0).trans (hearData_cut (by omega) [])

/-- The line at rest brings no order. -/
theorem hear_rest (wait : Nat) : hear (List.replicate wait true) cut = .silence := by
  have rests : (List.replicate wait true).dropWhile id = [] := by
    rw [List.dropWhile_eq_nil_iff]
    exact fun b hb => List.eq_of_mem_replicate hb
  rw [hear, rests]

end

/-! ## The orders -/

theorem Message.bits_length (m : Message) : m.bits.length = 12 * (m.data.length + 1) := by
  rw [Message.bits, List.length_append, frame_length, List.length_flatMap]
  simp only [frame_length, List.map_const', List.sum_replicate, smul_eq_mul]
  omega

theorem orderFrames_message (o : LinkOrder) : orderFrames o.message.code = some o.message.data.length := by
  cases o <;> rfl

theorem orderFrames_unknown {c : Byte} (unknown : c ∉ [0x51#8, 0x52#8, 0x53#8, 0x54#8]) : orderFrames c = none := by
  have other : ∀ k : Byte, k ∈ [0x51#8, 0x52#8, 0x53#8, 0x54#8] → c.toNat ≠ k.toNat := fun k hk e =>
    unknown (BitVec.eq_of_toNat_eq e ▸ hk)
  unfold orderFrames
  split
  next e => exact absurd e (other 0x51 (by simp))
  next e => exact absurd e (other 0x52 (by simp))
  next e => exact absurd e (other 0x53 (by simp))
  next e => exact absurd e (other 0x54 (by simp))
  next => rfl

theorem lampOf_number {c : BitVec 2} {a : Lamp} (h : c.toNat = a.number) : lampOf c = a := by
  rw [lampOf, h]
  cases a <;> rfl

theorem Lamp.number_lt (a : Lamp) : a.number < 4 := by
  cases a <;> decide

/-- The four lamps of a data frame are read (R193). -/
theorem lampIn_lampFrame (a b c d : Lamp) : lampIn (lampFrame a b c d) 0 = a ∧ lampIn (lampFrame a b c d) 1 = b ∧
    lampIn (lampFrame a b c d) 2 = c ∧ lampIn (lampFrame a b c d) 3 = d := by
  have := a.number_lt
  have := b.number_lt
  have := c.number_lt
  have := d.number_lt
  have whole : (lampFrame a b c d).toNat = a.number + 4 * b.number + 16 * c.number + 64 * d.number := by
    simp only [lampFrame, byte, BitVec.toNat_ofNat]
    omega
  have lamp : ∀ (i : Nat) (x : Lamp), (lampFrame a b c d).toNat / 2 ^ (2 * i) % 4 = x.number →
      lampIn (lampFrame a b c d) i = x := fun i x h =>
    lampOf_number (by rw [BitVec.extractLsb'_toNat, Nat.shiftRight_eq_div_pow]; exact h)
  rw [whole] at lamp
  exact ⟨lamp 0 a (by omega), lamp 1 b (by omega), lamp 2 c (by omega), lamp 3 d (by omega)⟩

theorem readOrder_lamp {b : Byte} (h : b.toNat < 16) (x y : Byte) : readOrder 0x54 [b, x, y] =
    some (.lamp ⟨b.toNat, h⟩ #v[lampIn x 0, lampIn x 1, lampIn x 2, lampIn x 3, lampIn y 0, lampIn y 1, lampIn y 2,
      lampIn y 3]) :=
  dif_pos h

theorem readOrder_block {b : Byte} (h : 15 < b.toNat) (x y : Byte) : readOrder 0x54 [b, x, y] = none :=
  dif_neg (by omega)

/-- An order is read from its message (R140, R193). -/
theorem readOrder_message (o : LinkOrder) : readOrder o.message.code o.message.data = some o := by
  cases o with
  | identify | image => rfl
  | poll a => cases a <;> rfl
  | lamp b v =>
    have block : (byte b.1).toNat = b.1 := by
      simp only [byte, BitVec.toNat_ofNat]
      omega
    obtain ⟨v0, v1, v2, v3⟩ := lampIn_lampFrame v[0] v[1] v[2] v[3]
    obtain ⟨v4, v5, v6, v7⟩ := lampIn_lampFrame v[4] v[5] v[6] v[7]
    have states : #v[v[0], v[1], v[2], v[3], v[4], v[5], v[6], v[7]] = v := by
      ext i hi
      interval_cases i <;> rfl
    have read := readOrder_lamp (b := byte b.1) (by rw [block]; exact b.2) (lampFrame v[0] v[1] v[2] v[3])
      (lampFrame v[4] v[5] v[6] v[7])
    rw [v0, v1, v2, v3, v4, v5, v6, v7, states] at read
    have same : (⟨(byte b.1).toNat, by rw [block]; exact b.2⟩ : Fin 16) = b := Fin.ext block
    rw [same] at read
    exact read

theorem hear_order (o : LinkOrder) (wait : Nat) :
    hear (List.replicate wait true ++ o.message.bits) false = .order o := by
  rw [hear_message (orderFrames_message o), orderHeard, readOrder_message]

section
variable (x : Panel) {rx : List Bool}

theorem Panel.hears_order {o : LinkOrder} (h : hear rx false = .order o) :
    x.hears rx false = ((x.take o).1, some (x.take o).2) := by
  rw [Panel.hears, h]
  rfl

theorem Panel.hears_fault (h : hear rx false = .fault) : x.hears rx false = (x, some .again) := by
  rw [Panel.hears, h]
  rfl

theorem Panel.hears_silence {cut : Bool} (h : hear rx cut = .silence) : x.hears rx cut = (x, none) := by
  rw [Panel.hears, h]

end

/-- Settles O58: the reply judged frame by frame, then what LDAn carries and a panel makes of it. -/
theorem repliesAreReadWhole : Obligations.RepliesAreReadWhole := by
  refine ⟨fun n o r wait early good => exchangeCommand_message n early good, fun l idle i => LinkEngine.lda_idle idle i,
    fun l o k flight => ?_⟩
  intro length
  have drives : ∀ i, l.lda i = o.message.bits[i]? := fun i => by rw [LinkEngine.lda, flight]; rfl
  have bits : o.message.bits.length = length := by
    rw [Message.bits_length]
    cases o <;> rfl
  refine ⟨fun i => ?_, fun x wait => x.hears_order ?_⟩
  · rw [drives, ← bits]
    simp
  · have heard : (List.range length).map (fun i => (l.lda i).getD true) = o.message.bits := by
      have all := map_bitAt o.message.bits []
      rw [List.append_nil, bits] at all
      simp only [drives]
      exact all
    rw [heard]
    exact hear_order o wait

/-- Settles O59: the parity of one frame, then each fault an order can have. -/
theorem singleFaultIsFound : Obligations.SingleFaultIsFound := by
  refine ⟨fun k d rest i hi => ⟨frameAt_frame k d rest, frameAt_fault k d rest hi⟩, fun x o i inside behind => ?single,
    fun x c unknown => ?code, fun x b d e large => ?block, fun x c => ?control, fun x a gap => ?gap,
    fun x o i inside => ?cut, fun x cut wait => x.hears_silence (hear_rest wait)⟩
  case single =>
    rw [Message.bits_length] at inside
    exact x.hears_fault (hear_fault (orderFrames_message o) inside behind)
  case code =>
    have none := orderFrames_unknown unknown
    have heard := hear_unknown (rest := []) (cut := false) none
    rw [List.append_nil] at heard
    exact x.hears_fault heard
  case block =>
    refine x.hears_fault ((hear_message (m := ⟨0x54, [b, d, e]⟩) rfl 0).trans ?_)
    rw [orderHeard, readOrder_block large]
  case control =>
    refine x.hears_fault ((hear_code (code := 0x53) (n := 1) rfl 0).trans ?_)
    rw [hearData_start (body := (frame true c).tail) (by rw [frame_eq]; rfl)]
    have control := frameAt_frame true c []
    rw [List.append_nil] at control
    rw [control]
    rfl
  case gap =>
    have poll : LinkOrder.message (.poll a) = ⟨0x53, [if a then 1 else 0]⟩ := by cases a <;> rfl
    have read := readOrder_message (.poll a)
    rw [poll] at read
    rw [List.append_assoc]
    have code : ∀ rest, hear (frame true 0x53 ++ rest) false = hearData false 0x53 1 [] rest := fun rest =>
      hear_code (code := 0x53) (n := 1) rfl 0
    by_cases short : gap ≤ 4
    · rw [if_pos short]
      refine x.hears_order (o := .poll a) ((code _).trans ?_)
      have frames := hearData_frame (cut := false) (code := 0x53) (rest := []) short 0 [] (if a then 1 else 0)
      rw [List.append_nil] at frames
      rw [frames, List.nil_append, hearData_done, orderHeard, read]
    · rw [if_neg short]
      refine x.hears_fault ((code _).trans ?_)
      rw [hearData_late (startWithin_late (by omega) _)]
      rfl
  case cut =>
    rw [Message.bits_length] at inside
    exact x.hears_silence (hear_cut (orderFrames_message o) inside)

end Sys2Proof.Machine
end

section
/-! PROOF. The two sides of the edge bit (R150, R151). -/

namespace Sys2Proof.Machine

/-- The edges of a panel's buffer that the part, whose L is `bitL`, has not accepted. -/
def Panel.awaited (x : Panel) (bitL : Bool) : List PanelEdge :=
  if x.outstanding = true ∧ bitL = x.lastSent then x.buffer.tail else x.buffer

/-- With no edge outstanding L is the last-sent bit; an outstanding edge is in the buffer. -/
def Panel.Agrees (x : Panel) (bitL : Bool) : Prop :=
  (x.outstanding = false → bitL = x.lastSent) ∧ (x.outstanding = true → x.buffer ≠ [])

section
variable {x : Panel} {a : Bool}

theorem Panel.report_empty (none : x.buffer = []) : x.report = ({ x with outstanding := false }, .nothing) := by
  simp only [Panel.report, none]

theorem Panel.report_edge {e : PanelEdge} {rest : List PanelEdge} (oldest : x.buffer = e :: rest) :
    x.report = ({ x with outstanding := true, lastSent := !x.lastSent }, .edge (!x.lastSent) e.press e.key) := by
  simp only [Panel.report, oldest]

/-- A POLL that acknowledges has the panel report the oldest edge behind the acknowledged one. -/
theorem Panel.poll_acknowledges (kept : x.lost = false) :
    x.poll x.lastSent = { x with buffer := x.awaited x.lastSent }.report := by
  rw [Panel.poll, if_neg (by rw [kept]; decide), if_pos rfl]
  cases out : x.outstanding with
  | true => simp [Panel.awaited, out]
  | false =>
    have all : x.awaited x.lastSent = x.buffer := if_neg fun h => by rw [out] at h; cases h.1
    rw [if_neg Bool.false_ne_true, all, ← out]

/-- A POLL that does not acknowledge has the panel report its outstanding edge again. -/
theorem Panel.poll_repeats (kept : x.lost = false) (other : a ≠ x.lastSent) (out : x.outstanding = true) {e : PanelEdge}
    {rest : List PanelEdge} (oldest : x.buffer = e :: rest) : x.poll a = (x, .edge x.lastSent e.press e.key) := by
  rw [Panel.poll, kept, if_neg Bool.false_ne_true, if_neg other]
  simp only [out, oldest]

/-- A POLL has the panel keep the edges awaited, and report the oldest of them under the bit that L is not. -/
theorem Panel.poll_spec (kept : x.lost = false) (agrees : x.Agrees a) : ∃ y, y.buffer = x.awaited a ∧
    ((x.awaited a = [] ∧ x.poll a = (y, .nothing) ∧ y.outstanding = false ∧ y.lastSent = a) ∨
      ∃ e rest, x.awaited a = e :: rest ∧ x.poll a = (y, .edge (!a) e.press e.key) ∧ y.outstanding = true ∧
        y.lastSent = !a) := by
  by_cases same : a = x.lastSent
  · subst same
    rw [Panel.poll_acknowledges kept]
    cases left : x.awaited x.lastSent with
    | nil => exact ⟨_, rfl, .inl ⟨rfl, Panel.report_empty rfl, rfl, rfl⟩⟩
    | cons e rest => exact ⟨_, rfl, .inr ⟨e, rest, rfl, Panel.report_edge rfl, rfl, rfl⟩⟩
  · have out : x.outstanding = true := by
      cases out : x.outstanding with
      | true => rfl
      | false => exact absurd (agrees.1 out) same
    have all : x.awaited a = x.buffer := if_neg fun h => same h.2
    have bit : x.lastSent = !a := Bool.eq_not_of_ne (Ne.symm same)
    obtain ⟨e, rest, oldest⟩ := List.exists_cons_of_ne_nil (agrees.2 out)
    refine ⟨x, all.symm, .inr ⟨e, rest, all.trans oldest, ?_, out, bit⟩⟩
    rw [Panel.poll_repeats kept same out oldest, bit]

end

/-- An edge whose bit differs from L is accepted, and handed on where its key exists. -/
theorem LinkEngine.takeEdge_new {l : LinkEngine} {bitS : Bool} (differs : bitS ≠ l.bitL) (n : LinkId) (press : Bool)
    (key : BitVec 7) : l.takeEdge n bitS press key = { l with
      bitL := bitS
      edges := l.edges ++ (if key.toNat < ((l.session.identity).map Identity.keyCount).getD 0 then
        [⟨press, posOf n ⟨key.toNat, key.isLt⟩, l.session.isUp⟩] else []) } := by
  rw [LinkEngine.takeEdge_accepted differs, Session.keyCount]
  split
  · rfl
  · rw [List.append_nil]

/-- Settles O60: the panel's answer by the edges awaited, then the engine's rule. -/
theorem edgesArriveOnceInOrder : Obligations.EdgesArriveOnceInOrder := by
  intro x l n awaited agree kept agrees
  have awaits : ∀ (y : Panel) (b : Bool), awaited y b = y.awaited b := fun _ _ => rfl
  have duplicate : ∀ press key, l.takeEdge n l.bitL press key = l := fun press key => l.takeEdge_duplicate n press key
  obtain ⟨y, buffer, ⟨none, poll, out, bit⟩ | ⟨e, rest, oldest, poll, out, bit⟩⟩ := Panel.poll_spec kept agrees
  · have settled : y.awaited l.bitL = y.buffer := if_neg fun h => by rw [out] at h; cases h.1
    rw [poll, awaits, awaits, settled]
    exact ⟨⟨⟨fun _ => bit.symm, fun h => absurd (out.symm.trans h) (by decide)⟩, buffer⟩, fun _ => none, fun _ _ _ h => (by cases h),
      duplicate⟩
  · have differs : (!l.bitL) ≠ l.bitL := Bool.not_ne_self l.bitL
    have before : y.awaited l.bitL = y.buffer := if_neg fun h => differs (bit ▸ h.2.symm)
    have behind : y.awaited (!l.bitL) = rest := by
      rw [Panel.awaited, if_pos ⟨out, bit.symm⟩, buffer, oldest]
      rfl
    have more : y.buffer ≠ [] := by rw [buffer, oldest]; exact List.cons_ne_nil e rest
    rw [poll, awaits, awaits, before]
    refine ⟨⟨⟨fun h => absurd (out.symm.trans h) (by decide), fun _ => more⟩, buffer⟩, fun h => (by cases h), fun bitS press key h => ?_,
      duplicate⟩
    obtain ⟨rfl, rfl, rfl⟩ := Reply.edge.inj h
    have taken := LinkEngine.takeEdge_new differs n e.press e.key
    rw [taken]
    refine ⟨⟨fun h => absurd (out.symm.trans h) (by decide), fun _ => more⟩, ?_, rfl⟩
    rw [awaits, behind]
    exact oldest

end Sys2Proof.Machine
end
